-- ==== Sys2Proof/Word.lean ====
section
/-! DEFINITION. The bit-vector types of the VRPE (spec 00_scope.md R10, R13, R14). -/

namespace Sys2Proof

/-- A command word, an accumulator value or a response value (R110, R34, R50). -/
abbrev Word := BitVec 32

/-- One physical or virtual register byte (R10: "Each physical access moves one byte"). -/
abbrev Byte := BitVec 8

/-- A virtual register address, 7 bits wide (R13). -/
abbrev VAddr := BitVec 7

end Sys2Proof
end

