-- ==== Sys2Proof/Config.lean ====
section
/-! DEFINITION. What an implementation fixes (the parameters of spec 00_scope.md R11 and 44_measurement_reader.md R252,
one record `Params`) and what the spec leaves open for ever (the free values, constants with no body). -/

namespace Sys2Proof

/-- POLL_XFAIL (R11, R148): what a transport failure on a STATUS read does inside a polling step. -/
inductive PollXfail where
  | retry
  | abort
  deriving DecidableEq, Repr

/-- CTRL_LAYOUT (R11, R40): where the control byte's fields stand. A two-bit field is given by its low bit;
its high bit is the next one up, as in the spec's `GAIN=5:4` (DESIGN CHOICE, log entry 1). -/
structure CtrlLayout where
  rst : Fin 8
  int : Fin 8
  gain : Fin 7
  mode : Fin 7
  drdy : Fin 8
  deriving DecidableEq, Repr

/-- LED_LAYOUT (R11, R43): where the LED byte's fields stand; two-bit fields by their low bit. -/
structure LedLayout where
  snsEn : Fin 8
  sns : Fin 7
  drvEn : Fin 8
  drv : Fin 7
  deriving DecidableEq, Repr

/-- The implementation parameters of R11, then the measurement register addresses of R252. -/
structure Params where
  /-- POLL_BUDGET - 1, so that every value is a legal budget (R11: 1 <= B <= 65535). -/
  budgetLessOne : Fin 65535
  /-- POLL_XFAIL. -/
  pollXfail : PollXfail
  /-- DEV_ADDR: the chip's transport address. -/
  devAddr : BitVec 7
  /-- PREG_STATUS. -/
  pregStatus : Byte
  /-- PREG_WRITE. -/
  pregWrite : Byte
  /-- PREG_READ. -/
  pregRead : Byte
  /-- TX_BIT. -/
  txBit : Fin 8
  /-- RX_BIT. -/
  rxBit : Fin 8
  /-- VREG_CTRL. -/
  vregCtrl : VAddr
  /-- VREG_LED. -/
  vregLed : VAddr
  /-- CTRL_LAYOUT. -/
  ctrl : CtrlLayout
  /-- LED_LAYOUT. -/
  led : LedLayout
  /-- DEFAULT_INT. -/
  defaultInt : BitVec 1
  /-- DEFAULT_GAIN. -/
  defaultGain : BitVec 2
  /-- DEFAULT_MODE. -/
  defaultMode : BitVec 2
  /-- TRIGGER_MODE. -/
  triggerMode : BitVec 2
  /-- XERR_W: width of a transport failure code. -/
  xerrW : Nat
  /-- VREG_LUX (R252), 2 bytes. -/
  vregLux : VAddr
  /-- VREG_CCT (R252), 2 bytes. -/
  vregCct : VAddr
  /-- VREG_CH0 (R252), 4 bytes. -/
  vregCh0 : VAddr
  /-- VREG_CH1 (R252), 4 bytes. -/
  vregCh1 : VAddr
  /-- VREG_CH2 (R252), 4 bytes. -/
  vregCh2 : VAddr
  deriving DecidableEq, Repr

/-- POLL_BUDGET (R11): STATUS reads one polling step may make. -/
def Params.pollBudget (p : Params) : Nat := p.budgetLessOne.val + 1

/-- What the transport-and-chip does about the outstanding request during one engine step (R4, R76).
`ok b` answers it: `Ok(b)` to a read, `Ok()` to a write (whose byte nobody looks at). `fail c` answers it
with a failure code. `silent` does not answer in this step, and the engine stays blocked (R331, 93 U17). -/
inductive Answer where
  | ok (b : Byte)
  | fail (code : Nat)
  | silent
  deriving DecidableEq, Repr, Inhabited

/-- FREE VALUE: the k-th word the spec leaves UNSPECIFIED (RSP_VALUE after STALLED or ILLEGAL and while a command
runs, PEND after an OK end of INIT or STARTMEAS, VBYTE and PEND at a block reset; R36, R50, R56, R283, R285). No body:
nothing about it can be proved (log entries 6 and 22). -/
opaque Config.freeWord : Nat → Word

/-- FREE VALUE: the k-th answer of the oracle where the state's `tape` lists none (R4: "Its answers are draws"). -/
opaque Config.freeAnswer : Nat → Answer

/-- RGB_MAP (44_measurement_reader.md R258): "a total function that the model takes as an argument and about
which it assumes nothing". Red, green, blue. -/
opaque Config.rgbMap : Word → Word → Word → Byte × Byte × Byte

end Sys2Proof
end

