-- ==== Sys2Proof/Syntax.lean ====
section
/-! DEFINITION. The commands of the VRPE (spec 30_encoding.md R113, R114): one constructor per row of
spec/opcode_table.json, its operands at the widths R114 gives them. -/

namespace Sys2Proof

inductive Instr where
  /-- WRITEV addr, data (R165). -/
  | writev (addr : VAddr) (data : Byte)
  /-- READV addr (R175). -/
  | readv (addr : VAddr)
  /-- READMB addr, n (R190). -/
  | readmb (addr : VAddr) (n : BitVec 3)
  /-- INIT (R215). -/
  | init
  /-- SETLED e, drv, sns (R220). -/
  | setled (e : BitVec 1) (drv sns : BitVec 2)
  /-- STARTMEAS (R225). -/
  | startmeas
  deriving DecidableEq, Repr

end Sys2Proof
end

