-- ==== Sys2Proof/WellFormed.lean ====
section
/-! DEFINITION. Which commands pass the value checks of spec 30_encoding.md R118 that look at the operands alone
(COUNT and ADDR). PROT looks at the parameters and NOINIT at the state: they are checked at accept
(Machine/Operands.lean, `operandCheck`). -/

namespace Sys2Proof

/-- R118, R192: READMB reads 1 to 4 bytes (COUNT) and stays inside 0x00..0x7F (ADDR); the other commands' operands
are all legal. -/
def Instr.wellFormed : Instr → Bool
  | .readmb addr n => decide (1 ≤ n.toNat) && decide (n.toNat ≤ 4) && decide (addr.toNat + n.toNat ≤ 128)
  | .writev _ _ => true
  | .readv _ => true
  | .init => true
  | .setled _ _ _ => true
  | .startmeas => true

end Sys2Proof
end

