-- ==== Sys2Proof/Decode.lean ====
section
/-! DEFINITION. The decoder, total on every 32-bit word (spec 30_encoding.md R110 to R117, R119, R124), and after it the
encoder, both written from the format table of R112 and the opcode map of R113. -/

namespace Sys2Proof

/-- Why a word is no command: R116 or R117. -/
inductive DecodeError where
  /-- OP is 0x0 or 0x7..0xF (R116). -/
  | rsvdOp
  /-- A bit outside the command's format is 1 (R117). -/
  | rsvdBits
  deriving DecidableEq, Repr

/-- OP = w[31:28] (R111). -/
def fieldOp (w : Word) : BitVec 4 := w.extractLsb' 28 4

/-- addr = w[14:8] (R114). -/
def fieldAddr (w : Word) : VAddr := w.extractLsb' 8 7

/-- data = w[7:0] (R114). -/
def fieldData (w : Word) : Byte := w.extractLsb' 0 8

/-- n = w[26:24] (R114). -/
def fieldN (w : Word) : BitVec 3 := w.extractLsb' 24 3

/-- e = w[24] (R114). -/
def fieldE (w : Word) : BitVec 1 := w.extractLsb' 24 1

/-- drv = w[3:2] (R114). -/
def fieldDrv (w : Word) : BitVec 2 := w.extractLsb' 2 2

/-- sns = w[1:0] (R114). -/
def fieldSns (w : Word) : BitVec 2 := w.extractLsb' 0 2

/-- The command if the word has no bit set outside its row's format: `(w & mask) = match` (R113), else RSVD_BITS
(R117). -/
def rowOr (w mask matched : Word) (i : Instr) : Except DecodeError Instr :=
  if w &&& mask = matched then .ok i else .error .rsvdBits

/-- R124: every word is one of the six commands or is refused by name; RSVD_OP is looked at before RSVD_BITS (R119). -/
def decode (w : Word) : Except DecodeError Instr :=
  match (fieldOp w).toNat with
  | 1 => rowOr w 0xFFFF8000#32 0x10000000#32 (.writev (fieldAddr w) (fieldData w))
  | 2 => rowOr w 0xFFFF80FF#32 0x20000000#32 (.readv (fieldAddr w))
  | 3 => rowOr w 0xF8FF80FF#32 0x30000000#32 (.readmb (fieldAddr w) (fieldN w))
  | 4 => rowOr w 0xFFFFFFFF#32 0x40000000#32 .init
  | 5 => rowOr w 0xFEFFFFF0#32 0x50000000#32 (.setled (fieldE w) (fieldDrv w) (fieldSns w))
  | 6 => rowOr w 0xFFFFFFFF#32 0x60000000#32 .startmeas
  | _ => .error .rsvdOp

/-- The command word of a command, by the formats of R112. Every operand fits its field by its type. -/
def encode : Instr → Word
  | .writev addr data => 0x1#4 ++ 0#13 ++ addr ++ data
  | .readv addr => 0x2#4 ++ 0#13 ++ addr ++ 0#8
  | .readmb addr n => 0x3#4 ++ 0#1 ++ n ++ 0#9 ++ addr ++ 0#8
  | .init => 0x4#4 ++ 0#28
  | .setled e drv sns => 0x5#4 ++ 0#3 ++ e ++ 0#20 ++ drv ++ sns
  | .startmeas => 0x6#4 ++ 0#28

/-- The command the decoder reads from the low `nbits` bits of `w`, every bit above them 0. One command is one 32-bit
word (R110), so there is no byte order to choose. -/
def decodeTableWord (nbits w : Nat) : Option Instr :=
  match decode (BitVec.ofNat 32 (w % 2 ^ nbits)) with
  | .ok i => some i
  | .error _ => none

end Sys2Proof
end

