-- ==== Sys2Proof/Machine/Reference.lean ====
section
/-! DEFINITION. The reference parameter values (spec 00_scope.md R11, 44_measurement_reader.md R252) and when a
configuration is well-formed (R12, R252). -/

namespace Sys2Proof

/-- Configuration REF: the last column of R11's table and of R252's. -/
def Params.reference : Params where
  budgetLessOne := 999
  pollXfail := .retry
  devAddr := 0x49
  pregStatus := 0x00
  pregWrite := 0x01
  pregRead := 0x02
  txBit := 1
  rxBit := 0
  vregCtrl := 0x04
  vregLed := 0x07
  ctrl := { rst := 7, int := 6, gain := 4, mode := 2, drdy := 1 }
  led := { snsEn := 0, sns := 1, drvEn := 3, drv := 4 }
  defaultInt := 0
  defaultGain := 2
  defaultMode := 2
  triggerMode := 3
  xerrW := 8
  vregLux := 0x3C
  vregCct := 0x3E
  vregCh0 := 0x14
  vregCh1 := 0x18
  vregCh2 := 0x1C

/-- The bits the fields of the control byte stand on. -/
def CtrlLayout.bits (l : CtrlLayout) : List Nat :=
  [l.rst, l.int, l.gain, l.gain + 1, l.mode, l.mode + 1, l.drdy]

/-- The bits the fields of the LED byte stand on. -/
def LedLayout.bits (l : LedLayout) : List Nat :=
  [l.snsEn, l.sns, l.sns + 1, l.drvEn, l.drv, l.drv + 1]

/-- R252: a measurement register address fits its byte count. -/
def spanFits (a : VAddr) (n : Nat) : Bool := decide (a.toNat + n ≤ 128)

/-- R12, the range of XERR_W in R11, and R252, one check an entry; the other ranges of R11, POLL_BUDGET's among them, are
in the types of `Params`. -/
def Params.checks (p : Params) : List Bool :=
  [decide (p.pregStatus ≠ p.pregWrite), decide (p.pregStatus ≠ p.pregRead), decide (p.pregWrite ≠ p.pregRead),
   decide (p.txBit ≠ p.rxBit), decide (p.vregCtrl ≠ p.vregLed),
   decide p.ctrl.bits.Nodup, decide p.led.bits.Nodup, decide (1 ≤ p.xerrW),
   spanFits p.vregLux 2, spanFits p.vregCct 2, spanFits p.vregCh0 4, spanFits p.vregCh1 4, spanFits p.vregCh2 4]

/-- "a configuration that breaks one is ill-formed" (R12). No step looks at it: it is a premise of the statements that
need it (log entry 13). -/
def Params.wf (p : Params) : Bool := p.checks.all (fun b => b)

end Sys2Proof
end

