-- ==== Sys2Proof/Machine/State.lean ====
section
/-! DEFINITION. The state: every register of spec 10_state.md R30 to R39 and R50, the host procedure's state
(44_measurement_reader.md R251, R253), and the model's own fields (the parameters, the host's acts to come, the
transport's answers to come, the free-value counter, the trace). Reset: R56, R320. -/

namespace Sys2Proof.Machine

/-- The sequencing register `phase` (R31). -/
inductive Phase where
  | idle
  | run
  deriving DecidableEq, Repr

/-- The command latch (R32). -/
structure Latch where
  /-- CMD_OP. -/
  op : BitVec 4
  /-- CMD_A. -/
  a : VAddr
  /-- CMD_D. -/
  d : Byte
  /-- CMD_N. -/
  n : BitVec 3
  /-- CMD_E. -/
  e : BitVec 1
  /-- CMD_DRV. -/
  drv : BitVec 2
  /-- CMD_SNS. -/
  sns : BitVec 2
  deriving DecidableEq, Repr

/-- The response registers (R50). RSP_XERR is XERR_W bits wide, a parameter, so it is held as a number
(log entry 4). -/
structure Response where
  /-- RSP_VALID. -/
  valid : Bool
  /-- RSP_STATUS (R51). -/
  status : BitVec 2
  /-- RSP_CAUSE (R286). -/
  cause : BitVec 3
  /-- RSP_STEP. -/
  step : BitVec 3
  /-- RSP_SUB. -/
  sub : BitVec 2
  /-- RSP_XERR. -/
  xerr : Nat
  /-- RSP_VALUE. -/
  value : Word
  deriving DecidableEq, Repr

/-- One transport event (R77), with the device address the request went to (R17: "at DEV_ADDR"). -/
inductive XEvent where
  /-- `Rd(p) -> Ok(b)`. -/
  | rdOk (dev : BitVec 7) (p b : Byte)
  /-- `Rd(p) -> Fail(c)`. -/
  | rdFail (dev : BitVec 7) (p : Byte) (c : Nat)
  /-- `Wr(p, v) -> Ok()`. -/
  | wrOk (dev : BitVec 7) (p v : Byte)
  /-- `Wr(p, v) -> Fail(c)`. -/
  | wrFail (dev : BitVec 7) (p v : Byte) (c : Nat)
  deriving DecidableEq, Repr

/-- What the outside does to the block in one step. -/
inductive HostInput where
  /-- Nothing. -/
  | wait
  /-- A command word at the command port (R59). -/
  | present (w : Word)
  /-- The host calls MREAD (R253). -/
  | mread
  /-- Block reset (R320). -/
  | reset
  deriving DecidableEq, Repr

/-- The six commands of MREAD in their fixed order (R255). -/
inductive MreadCmd where
  | ctrl
  | lux
  | cct
  | ch0
  | ch1
  | ch2
  deriving DecidableEq, Repr

/-- Where the host procedure MREAD stands (R250, R253). -/
inductive MreadPos where
  /-- No MREAD runs. -/
  | off
  /-- Waiting for BUSY = 0 to present command `k`. -/
  | issue (k : MreadCmd)
  /-- Command `k` was presented; waiting for its response. -/
  | await (k : MreadCmd)
  deriving DecidableEq, Repr

/-- The snapshot of an MREAD that returned OK (R253, R257). -/
structure Snapshot where
  lux : Word
  cct : Word
  red : Byte
  green : Byte
  blue : Byte
  deriving DecidableEq, Repr

/-- What an MREAD returned (R254 to R256). A snapshot exists with OK only. -/
inductive MreadResult where
  | ok (snap : Snapshot)
  | notReady
  | stalled
  deriving DecidableEq, Repr

/-- The host procedure's state (R54, R251): LAST_LUX and LAST_CCT, MREAD's position and locals, its last result. -/
structure HostSession where
  /-- LAST_LUX. -/
  lastLux : BitVec 16
  /-- LAST_CCT. -/
  lastCct : BitVec 16
  pos : MreadPos
  /-- MREAD's local `lux`. -/
  lux : Word
  /-- MREAD's local `cct`. -/
  cct : Word
  /-- MREAD's local `x`. -/
  x : Word
  /-- MREAD's local `y`. -/
  y : Word
  result : Option MreadResult
  deriving DecidableEq, Repr

/-- The whole machine. -/
structure State where
  /-- The parameters (R11): arguments of the model, changed by no step (log entry 1). -/
  cfg : Params
  /-- R31. -/
  phase : Phase
  /-- R32. -/
  cmd : Latch
  /-- R33: index of the current virtual access. -/
  sub : BitVec 2
  /-- R33: handshake step 1..5. -/
  step : BitVec 3
  /-- R33: STATUS reads made in the current polling step. -/
  pcnt : BitVec 16
  /-- ACC (R34). -/
  acc : Word
  /-- VBYTE (R35). -/
  vbyte : Byte
  /-- PEND (R36), UNSPECIFIED outside INIT and STARTMEAS (log entry 22). -/
  pend : Byte
  /-- CTRL_SHADOW (R37). -/
  ctrlShadow : Byte
  /-- INIT_DONE (R38). -/
  initDone : Bool
  /-- OVERRUN (R39). -/
  overrun : Bool
  /-- R50. -/
  rsp : Response
  /-- R251, R253: host state, not VRPE state. -/
  host : HostSession
  /-- The model's own: what the host does in the steps to come, one act a step; nothing when empty (log entry 2). -/
  inputs : List HostInput
  /-- The model's own: the transport's answers to come; free draws when empty (log entry 3). -/
  tape : List Answer
  /-- The model's own: how many free values were drawn (log entry 6). -/
  free : Nat
  /-- The model's own: the transport events so far, NEWEST FIRST (R77; log entry 7). -/
  trace : List XEvent
  deriving DecidableEq, Repr

/-- Why the machine stops. Each is SAFE: the model stops where the spec gives no behaviour. -/
inductive Fault where
  /-- Raised by a command's engine step when (`sub`, `step`) is a position that its pseudocode never has (R33).
  No run reaches such a state. Safe. -/
  | noSuchPosition
  /-- Raised by a meaning asked to go on with a command that is not the latched one, and by `step` in RUN with a latch
  that is no command's. No run reaches such a state. Safe. -/
  | notTheRunningCommand
  /-- Raised by `step` when the host calls MREAD while an MREAD of its own is still running (R39: "not reentrant";
  91 N21: no interleaving semantics may be assumed). Safe. -/
  | mreadReentered
  deriving DecidableEq, Repr

/-- Instructions without a meaning. -/
inductive Refusal where
  /-- Raised by an arm of `exec` that has no meaning yet; no arm is left so. Safe. -/
  | notModelled (mnemonic : String)
  deriving DecidableEq, Repr

/-- The result of a step of this machine. -/
abbrev Result := Host.Outcome State Fault Refusal

/-- The latch at reset (R56): all fields 0. -/
def Latch.zero : Latch := { op := 0, a := 0, d := 0, n := 0, e := 0, drv := 0, sns := 0 }

/-- The response registers at reset (R56). RSP_VALUE is UNSPECIFIED there; 0 is the model's (log entry 5). -/
def Response.zero : Response :=
  { valid := false, status := 0, cause := 0, step := 0, sub := 0, xerr := 0, value := 0 }

/-- The host session before any MREAD. LAST_LUX and LAST_CCT are UNSPECIFIED (R251); 0 is the model's
(log entries 5 and 8). -/
def HostSession.start : HostSession :=
  { lastLux := 0, lastCct := 0, pos := .off, lux := 0, cct := 0, x := 0, y := 0, result := none }

/-- Right after block reset (R56, R320), at the reference parameters (R11). VBYTE and PEND are UNSPECIFIED in R56;
0 is the model's (log entry 5). -/
def State.reset : State where
  cfg := Params.reference
  phase := .idle
  cmd := Latch.zero
  sub := 0
  step := 0
  pcnt := 0
  acc := 0
  vbyte := 0
  pend := 0
  ctrlShadow := 0
  initDone := false
  overrun := false
  rsp := Response.zero
  host := HostSession.start
  inputs := []
  tape := []
  free := 0
  trace := []

end Sys2Proof.Machine
end

