-- ==== Sys2Proof/Machine/Operands.lean ====
section
/-! DEFINITION. Operand forms: the command latch (spec 10_state.md R32, 30_encoding.md R114), the value checks at accept
(R118, R119), the bytes the engine composes (20_memory.md R72, 43_chip_controller.md R211 to R214) and the cause codes
(60_exceptions.md R286). -/

namespace Sys2Proof.Machine

/-- The causes of an ILLEGAL response (R286). -/
inductive IllegalCause where
  | rsvdOp
  | rsvdBits
  | addr
  | count
  | prot
  | noinit
  deriving DecidableEq, Repr

/-- The causes of a STALLED response (R286). -/
inductive StallCause where
  | timeout
  | transport
  deriving DecidableEq, Repr

/-- RSP_CAUSE under ILLEGAL (R286). -/
def IllegalCause.code : IllegalCause → BitVec 3
  | .rsvdOp => 0
  | .rsvdBits => 1
  | .addr => 2
  | .count => 3
  | .prot => 4
  | .noinit => 5

/-- RSP_CAUSE under STALLED (R286). -/
def StallCause.code : StallCause → BitVec 3
  | .timeout => 0
  | .transport => 1

/-- RSP_STATUS of OK (R51). -/
def statusOk : BitVec 2 := 0

/-- RSP_STATUS of STALLED (R51). -/
def statusStalled : BitVec 2 := 1

/-- The status code NOT_READY, "never by the VRPE" (R51). -/
def statusNotReady : BitVec 2 := 2

/-- RSP_STATUS of ILLEGAL (R51). -/
def statusIllegal : BitVec 2 := 3

/-- The cause the decoder's refusal is reported with (R116, R117). -/
def decodeCause : DecodeError → IllegalCause
  | .rsvdOp => .rsvdOp
  | .rsvdBits => .rsvdBits

/-- The opcode of a command (R113). -/
def opcodeOf : Instr → BitVec 4
  | .writev _ _ => 0x1
  | .readv _ => 0x2
  | .readmb _ _ => 0x3
  | .init => 0x4
  | .setled _ _ _ => 0x5
  | .startmeas => 0x6

/-- What accepting a command latches (R32): "Fields a command does not use are latched as zero". -/
def latchOf : Instr → Latch
  | .writev addr data => { Latch.zero with op := 0x1, a := addr, d := data }
  | .readv addr => { Latch.zero with op := 0x2, a := addr }
  | .readmb addr n => { Latch.zero with op := 0x3, a := addr, n := n }
  | .init => { Latch.zero with op := 0x4 }
  | .setled e drv sns => { Latch.zero with op := 0x5, e := e, drv := drv, sns := sns }
  | .startmeas => { Latch.zero with op := 0x6 }

/-- The command a latch holds, by its opcode; none for a reserved opcode. -/
def instrOf (l : Latch) : Option Instr :=
  match l.op.toNat with
  | 1 => some (.writev l.a l.d)
  | 2 => some (.readv l.a)
  | 3 => some (.readmb l.a l.n)
  | 4 => some .init
  | 5 => some (.setled l.e l.drv l.sns)
  | 6 => some .startmeas
  | _ => none

/-- R118, R192: COUNT is looked at before ADDR. -/
def readmbCheck (addr : VAddr) (n : BitVec 3) : Option IllegalCause :=
  if n.toNat = 0 ∨ 5 ≤ n.toNat then some .count
  else if 128 < addr.toNat + n.toNat then some .addr
  else none

/-- R118, R166: WRITEV may not write the two registers the chip controller owns. -/
def writevCheck (p : Params) (addr : VAddr) : Option IllegalCause :=
  if addr = p.vregCtrl ∨ addr = p.vregLed then some .prot else none

/-- R118, R225: STARTMEAS needs INIT_DONE = 1. -/
def startmeasCheck (initDone : Bool) : Option IllegalCause :=
  if initDone then none else some .noinit

/-- The value checks of R118, one command at a time. -/
def operandCheck (p : Params) (initDone : Bool) : Instr → Option IllegalCause
  | .writev addr _ => writevCheck p addr
  | .readv _ => none
  | .readmb addr n => readmbCheck addr n
  | .init => none
  | .setled _ _ _ => none
  | .startmeas => startmeasCheck initDone

/-- R124: a word is one of the six commands, its value checks passed, or ILLEGAL with exactly one cause, the first in
the order of R119. -/
def classify (p : Params) (initDone : Bool) (w : Word) : Except IllegalCause Instr :=
  match decode w with
  | .error e => .error (decodeCause e)
  | .ok i =>
    match operandCheck p initDone i with
    | some c => .error c
    | none => .ok i

/-- WRITE_FLAG (R10). -/
def writeFlag : Byte := 0x80

/-- The address byte of a virtual write, `zext_8(a) | 0x80` (R72, R161). -/
def writeAddrByte (a : VAddr) : Byte := a.setWidth 8 ||| writeFlag

/-- The address byte of a virtual read, `zext_8(a)` (R72, R171). -/
def readAddrByte (a : VAddr) : Byte := a.setWidth 8

/-- `ctrl_byte(rst, int, gain, mode)` (R211): DRDY and every reserved bit are 0. -/
def ctrlByte (l : CtrlLayout) (rst int : BitVec 1) (gain mode : BitVec 2) : Byte :=
  (rst.setWidth 8 <<< l.rst.val) ||| (int.setWidth 8 <<< l.int.val)
    ||| (gain.setWidth 8 <<< l.gain.val) ||| (mode.setWidth 8 <<< l.mode.val)

/-- The RST field of a control byte (R40). -/
def ctrlRst (l : CtrlLayout) (b : Byte) : BitVec 1 := (b >>> l.rst.val).setWidth 1

/-- The INT field of a control byte (R40). -/
def ctrlInt (l : CtrlLayout) (b : Byte) : BitVec 1 := (b >>> l.int.val).setWidth 1

/-- The GAIN field of a control byte (R40). -/
def ctrlGain (l : CtrlLayout) (b : Byte) : BitVec 2 := (b >>> l.gain.val).setWidth 2

/-- The MODE field of a control byte (R40). -/
def ctrlMode (l : CtrlLayout) (b : Byte) : BitVec 2 := (b >>> l.mode.val).setWidth 2

/-- The DRDY bit of a control byte as READV returned it, in a 32-bit value (R40, R253). -/
def ctrlDrdy (l : CtrlLayout) (v : Word) : Bool := v.getLsbD l.drdy.val

/-- CTRL_RESET_WORD (R212). -/
def ctrlResetWord (p : Params) : Byte := ctrlByte p.ctrl 1 0 0 0

/-- DEFAULT_CFG (R213). -/
def defaultCfg (p : Params) : Byte := ctrlByte p.ctrl 0 p.defaultInt p.defaultGain p.defaultMode

/-- The byte STARTMEAS writes: the shadow's INT and GAIN, and TRIGGER_MODE (R225). -/
def triggerByte (p : Params) (shadow : Byte) : Byte :=
  ctrlByte p.ctrl 0 (ctrlInt p.ctrl shadow) (ctrlGain p.ctrl shadow) p.triggerMode

/-- `led_byte(e, drv, sns)` (R214): the all-zero "off" pattern, or both enables and both levels. -/
def ledByte (l : LedLayout) (e : BitVec 1) (drv sns : BitVec 2) : Byte :=
  if e = 0#1 then 0
  else (drv.setWidth 8 <<< l.drv.val) ||| (1#8 <<< l.drvEn.val)
    ||| (sns.setWidth 8 <<< l.sns.val) ||| (1#8 <<< l.snsEn.val)

/-- The address of READMB's virtual access `sub`, computed at 7 bits (R192). -/
def mbAddr (a : VAddr) (sub : BitVec 2) : VAddr := a + sub.setWidth 7

/-- `(ACC << 8) | zext_32(b)` (R34, R191). -/
def accPush (acc : Word) (b : Byte) : Word := (acc <<< 8) ||| b.setWidth 32

/-- A transport failure code as XERR_W wires carry it (R17, R76; log entry 4). -/
def narrowXerr (p : Params) (c : Nat) : Nat := c % 2 ^ p.xerrW

end Sys2Proof.Machine
end

