-- ==== Sys2Proof/Machine/Flags.lean ====
section
/-! DEFINITION. Flags: the two STATUS bits and the poll conditions over them (spec 40_physical_access.md R143, 10_state.md
R46), BUSY and the engine status word (R52, R53). The VRPE has no condition codes (R49). -/

namespace Sys2Proof.Machine

/-- The conditions POLL waits for (R143, R145). -/
inductive PollCond where
  | txClear
  | txSet
  | rxSet
  deriving DecidableEq, Repr

/-- `tx(s) = s[TX_BIT]` (R143). -/
def statusTx (p : Params) (b : Byte) : Bool := b.getLsbD p.txBit.val

/-- `rx(s) = s[RX_BIT]` (R143). -/
def statusRx (p : Params) (b : Byte) : Bool := b.getLsbD p.rxBit.val

/-- R143: what each condition asks of a STATUS byte. -/
def PollCond.holds (p : Params) : PollCond → Byte → Bool
  | .txClear, b => !statusTx p b
  | .txSet, b => statusTx p b
  | .rxSet, b => statusRx p b

/-- BUSY is 1 exactly when `phase = RUN` (R52). -/
def State.busy (s : State) : Bool := decide (s.phase = .run)

/-- ESTAT (R53): BUSY, INIT_DONE, OVERRUN, RSP_VALID in bits 0 to 3, bits 7:4 zero, CTRL_SHADOW in bits 15:8. -/
def State.estat (s : State) : BitVec 16 :=
  s.ctrlShadow ++ 0#4 ++ BitVec.ofBool s.rsp.valid ++ BitVec.ofBool s.overrun
    ++ BitVec.ofBool s.initDone ++ BitVec.ofBool s.busy

end Sys2Proof.Machine
end

