-- ==== Sys2Proof/Machine/Ops.lean ====
section
/-! DEFINITION. The shared operations: posting a response (finish, raise Stalled, raise Illegal: spec 00_scope.md R18,
10_state.md R50, 60_exceptions.md R283, R285), accepting a command (R31), block reset (R320), the transport
transactions (40_physical_access.md R140, R141), the polling step (R145), and the two halves of every command. -/

namespace Sys2Proof.Machine

/-! ### Ending a command -/

/-- `finish(v)` (R50). PEND is UNSPECIFIED outside INIT and STARTMEAS (R36): these two make it a free value where they
end OK (`State.freePend`); under the other commands it stands (log entry 22). -/
def State.finish (s : State) (v : Word) : State :=
  { s with
    phase := .idle
    rsp := { valid := true, status := statusOk, cause := 0, step := 0, sub := 0, xerr := 0, value := v } }

/-- PEND becomes a free value: INIT or STARTMEAS has ended OK, and outside them it is UNSPECIFIED (R36; log entry 22). -/
def State.freePend (s : State) : State :=
  { s with pend := (Config.freeWord s.free).setWidth 8, free := s.free + 1 }

/-- `raise Stalled(cause, step, sub, xerr)`, the abort of R283: the diagnosis is posted, RSP_VALUE is a free value, the
engine is IDLE, and nothing else changes. There is no handler and no return (R289): the next command is simply
accepted. That PEND stands after a STALLED INIT or STARTMEAS follows R283 ("It changes no other VRPE state"), where R36
calls it UNSPECIFIED: DESIGN CHOICE (log entry 22). -/
def State.stall (s : State) (c : StallCause) (step : BitVec 3) (sub : BitVec 2) (xerr : Nat) : State :=
  { s with
    phase := .idle
    rsp := { valid := true, status := statusStalled, cause := c.code, step := step, sub := sub, xerr := xerr,
             value := Config.freeWord s.free }
    free := s.free + 1 }

/-- `raise Illegal(cause)` (R285): only the response changes, RSP_VALUE to a free value. -/
def State.illegal (s : State) (c : IllegalCause) : State :=
  { s with
    rsp := { valid := true, status := statusIllegal, cause := c.code, step := 0, sub := 0, xerr := 0,
             value := Config.freeWord s.free }
    free := s.free + 1 }

/-! ### Starting a command -/

/-- Acceptance (R31, R32, R50, and the `accept` lines of R165, R175, R190, R215, R220, R225): RUN, the latch written once,
RSP_VALID 0, the position at the first poll of virtual access 0. RSP_VALUE is UNSPECIFIED while a command runs
(93 U3): a free value. -/
def State.accept (s : State) (l : Latch) : State :=
  { s with
    phase := .run
    cmd := l
    sub := 0
    step := 1
    pcnt := 0
    rsp := { s.rsp with valid := false, value := Config.freeWord s.free }
    free := s.free + 1 }

/-! ### Moving inside a command -/

/-- `step <- k` before a WRITE or READ transaction. -/
def State.toTransfer (s : State) (k : BitVec 3) : State := { s with step := k }

/-- `step <- k; POLL(k, …)`: `pcnt` is reset at the start of every polling step (R33). -/
def State.toPoll (s : State) (k : BitVec 3) : State := { s with step := k, pcnt := 0 }

/-- The start of virtual access `k` of the command: its step 1. -/
def State.toAccess (s : State) (k : BitVec 2) : State := { s with sub := k, step := 1, pcnt := 0 }

/-! ### Block reset -/

/-- Block reset at any moment (R320, R56): every VRPE register takes its reset value, the three UNSPECIFIED ones a free
value; the chip, the host and the trace are not touched (R321), and no transaction is issued. -/
def State.blockReset (s : State) : State :=
  { s with
    phase := .idle
    cmd := Latch.zero
    sub := 0
    step := 0
    pcnt := 0
    acc := 0
    vbyte := (Config.freeWord s.free).setWidth 8
    pend := (Config.freeWord (s.free + 1)).setWidth 8
    ctrlShadow := 0
    initDone := false
    overrun := false
    rsp := { Response.zero with value := Config.freeWord (s.free + 2) }
    free := s.free + 3 }

/-! ### The transport port -/

/-- What a transaction that was answered returned (R17): `Ok(b)` (the byte of an answered write means nothing) or
`Fail(c)`. -/
inductive XResp where
  | ok (b : Byte)
  | fail (c : Nat)
  deriving DecidableEq, Repr

/-- The transport's answer in this step: the next one listed, or a free draw of the oracle (R4). -/
def State.answer (s : State) : Answer × State :=
  match s.tape with
  | a :: rest => (a, { s with tape := rest })
  | [] => (Config.freeAnswer s.free, { s with free := s.free + 1 })

/-- The trace with one more event (R77). -/
def State.record (s : State) (e : XEvent) : State := { s with trace := e :: s.trace }

/-- PRD(p), one transport read (R140); `none` while the transport does not answer (R76: "The call blocks"). -/
def State.physRead (s : State) (p : Byte) : Option XResp × State :=
  match s.answer with
  | (.ok b, t) => (some (.ok b), t.record (.rdOk s.cfg.devAddr p b))
  | (.fail c, t) =>
    (some (.fail (narrowXerr s.cfg c)), t.record (.rdFail s.cfg.devAddr p (narrowXerr s.cfg c)))
  | (.silent, t) => (none, t)

/-- PWR(p, v), one transport write (R141); `none` while the transport does not answer. -/
def State.physWrite (s : State) (p v : Byte) : Option XResp × State :=
  match s.answer with
  | (.ok b, t) => (some (.ok b), t.record (.wrOk s.cfg.devAddr p v))
  | (.fail c, t) =>
    (some (.fail (narrowXerr s.cfg c)), t.record (.wrFail s.cfg.devAddr p v (narrowXerr s.cfg c)))
  | (.silent, t) => (none, t)

/-! ### The polling step -/

/-- `pcnt <- pcnt + 1` (R145). -/
def State.countRead (s : State) : State := { s with pcnt := s.pcnt + 1 }

/-- After a STATUS read that did not see the condition: read again while the budget lasts, else TIMEOUT (R145, R146). -/
def State.pollMissed (s : State) : State :=
  if s.pcnt.toNat < s.cfg.pollBudget then s else s.stall .timeout s.step s.sub 0

/-- One engine step of POLL (R145): one STATUS read; `seen` goes on where the condition held. A failed read is one
attempt under RETRY and ends the command under ABORT (R148). -/
def State.pollStep (s : State) (c : PollCond) (seen : State → State) : State :=
  match s.physRead s.cfg.pregStatus with
  | (none, t) => t
  | (some (.ok b), t) =>
    if c.holds s.cfg b then seen t.countRead else t.countRead.pollMissed
  | (some (.fail x), t) =>
    match s.cfg.pollXfail with
    | .abort => t.countRead.stall .transport s.step s.sub x
    | .retry => t.countRead.pollMissed

/-- One write to WRITE (R161 steps 2 and 4, R171 step 2): a failure ends the command (R282). -/
def State.writeStep (s : State) (v : Byte) (sent : State → State) : State :=
  match s.physWrite s.cfg.pregWrite v with
  | (none, t) => t
  | (some (.ok _), t) => sent t
  | (some (.fail x), t) => t.stall .transport s.step s.sub x

/-- One read of READ (R171 step 4): the byte goes to VBYTE; a failure ends the command (R282). -/
def State.readStep (s : State) (got : State → State) : State :=
  match s.physRead s.cfg.pregRead with
  | (none, t) => t
  | (some (.ok b), t) => got { t with vbyte := b }
  | (some (.fail x), t) => t.stall .transport s.step s.sub x

/-! ### The two halves of a command -/

/-- A command `i` at a state: in IDLE it is accepted (its value check first, R118; `start` is what its `accept` lines
and the lines before its first transaction do beyond `State.accept`); in RUN it makes one engine step, `body`. -/
def runCommand (i : Instr) (check : Option IllegalCause) (start : State → State) (body : State → Result)
    (s : State) : Result :=
  match s.phase with
  | .idle =>
    match check with
    | some c => .next (s.illegal c)
    | none => .next (start (s.accept (latchOf i)))
  | .run => if s.cmd = latchOf i then body s else .fault .notTheRunningCommand

end Sys2Proof.Machine
end

