-- ==== Sys2Proof/Machine/Protocol.lean ====
section
/-! DEFINITION. The protocol engine (spec 41_virtual_register_protocol.md): the handshakes VWRITE (R161) and VREAD
(R171), one engine step at a time, and the commands WRITEV (R165) and READV (R175). -/

namespace Sys2Proof.Machine

/-- One engine step of VWRITE(a, d, sub) (R161) at handshake step `s.step`; `done` follows its step 5. -/
def vwriteStep (a : VAddr) (d : Byte) (done : State → State) (s : State) : Result :=
  match s.step.toNat with
  | 1 => .next (s.pollStep .txClear (fun t => t.toTransfer 2))
  | 2 => .next (s.writeStep (writeAddrByte a) (fun t => t.toPoll 3))
  | 3 => .next (s.pollStep .txSet (fun t => t.toTransfer 4))
  | 4 => .next (s.writeStep d (fun t => t.toPoll 5))
  | 5 => .next (s.pollStep .txClear done)
  | _ => .fault .noSuchPosition

/-- One engine step of VREAD(a, sub) (R171) at handshake step `s.step`; `got` follows its step 4, where VBYTE holds the
byte read. -/
def vreadStep (a : VAddr) (got : State → State) (s : State) : Result :=
  match s.step.toNat with
  | 1 => .next (s.pollStep .txClear (fun t => t.toTransfer 2))
  | 2 => .next (s.writeStep (readAddrByte a) (fun t => t.toPoll 3))
  | 3 => .next (s.pollStep .rxSet (fun t => t.toTransfer 4))
  | 4 => .next (s.readStep got)
  | _ => .fault .noSuchPosition

/-- A body that belongs to virtual access 0 only (R33: sub is 0 outside READMB and INIT). -/
def onlyAccess0 (body : State → Result) (s : State) : Result :=
  if s.sub = 0 then body s else .fault .noSuchPosition

/-- WRITEV addr, data (R165, R166). -/
def execWritev (addr : VAddr) (data : Byte) (s : State) : Result :=
  runCommand (.writev addr data) (writevCheck s.cfg addr) (fun t => t)
    (onlyAccess0 (vwriteStep s.cmd.a s.cmd.d (fun t => t.finish 0))) s

/-- READV addr (R175). -/
def execReadv (addr : VAddr) (s : State) : Result :=
  runCommand (.readv addr) none (fun t => t)
    (onlyAccess0 (vreadStep s.cmd.a (fun t => t.finish (t.vbyte.setWidth 32)))) s

end Sys2Proof.Machine
end

