-- ==== Sys2Proof/Machine/ChipController.lean ====
section
/-! DEFINITION. The chip-control state machine: INIT, SETLED, STARTMEAS (spec 43_chip_controller.md R210 to R227). -/

namespace Sys2Proof.Machine

/-- INIT's accept lines and its first `run` line (R215): the controller is UNINIT, the shadow cleared, and PEND holds the
reset word. -/
def initStart (t : State) : State :=
  { t with initDone := false, ctrlShadow := 0, pend := ctrlResetWord t.cfg }

/-- After a VWRITE of INIT (R215): after the reset write PEND takes DEFAULT_CFG and access 1 begins; after the
configuration write the shadow is loaded from PEND, the controller is READY, and PEND is free again (R36, log entry 22). -/
def initWritten (t : State) : State :=
  if t.sub = 0 then ({ t with pend := defaultCfg t.cfg } : State).toAccess 1
  else ({ t with ctrlShadow := t.pend, initDone := true } : State).freePend.finish 0

/-- INIT (R215). -/
def execInit (s : State) : Result :=
  runCommand .init none initStart
    (fun t =>
      if t.sub.toNat < 2 then vwriteStep t.cfg.vregCtrl t.pend initWritten t
      else .fault .noSuchPosition) s

/-- SETLED e, drv, sns (R220). -/
def execSetled (e : BitVec 1) (drv sns : BitVec 2) (s : State) : Result :=
  runCommand (.setled e drv sns) none (fun t => t)
    (onlyAccess0
      (vwriteStep s.cfg.vregLed (ledByte s.cfg.led s.cmd.e s.cmd.drv s.cmd.sns) (fun t => t.finish 0))) s

/-- STARTMEAS's first `run` line (R225): PEND takes the byte built from the shadow. -/
def startmeasStart (t : State) : State := { t with pend := triggerByte t.cfg t.ctrlShadow }

/-- After STARTMEAS's VWRITE (R225): the shadow is loaded from PEND, and PEND is free again (R36, log entry 22). -/
def startmeasWritten (t : State) : State := ({ t with ctrlShadow := t.pend } : State).freePend.finish 0

/-- STARTMEAS (R225, R226). -/
def execStartmeas (s : State) : Result :=
  runCommand .startmeas (startmeasCheck s.initDone) startmeasStart
    (onlyAccess0
      (vwriteStep s.cfg.vregCtrl s.pend startmeasWritten)) s

end Sys2Proof.Machine
end

