-- ==== Sys2Proof/Machine/ValueAssembler.lean ====
section
/-! DEFINITION. The multi-byte value assembler: READMB (spec 42_value_assembler.md R190 to R196). -/

namespace Sys2Proof.Machine

/-- After the VREAD of access `sub` (R190): ACC takes the byte, and the next access begins or the command ends. -/
def mbByteRead (t : State) : State :=
  let u : State := { t with acc := accPush t.acc t.vbyte }
  if u.sub.toNat + 1 < u.cmd.n.toNat then u.toAccess (u.sub + 1) else u.finish u.acc

/-- READMB addr, n (R190, R192). -/
def execReadmb (addr : VAddr) (n : BitVec 3) (s : State) : Result :=
  runCommand (.readmb addr n) (readmbCheck addr n) (fun t => { t with acc := 0 })
    (fun t =>
      if t.sub.toNat < t.cmd.n.toNat then vreadStep (mbAddr t.cmd.a t.sub) mbByteRead t
      else .fault .noSuchPosition) s

end Sys2Proof.Machine
end

