-- ==== Sys2Proof/Machine/Dispatch.lean ====
section
/-! DEFINITION. One arm per command: a command at a state is accepted in IDLE and makes one engine step in RUN. -/

namespace Sys2Proof.Machine

def exec (i : Instr) (s : State) : Host.Outcome State Fault Refusal :=
  match i with
  | .writev addr data => Sys2Proof.Machine.execWritev addr data s
  | .readv addr => Sys2Proof.Machine.execReadv addr s
  | .readmb addr n => Sys2Proof.Machine.execReadmb addr n s
  | .init => Sys2Proof.Machine.execInit s
  | .setled e drv sns => Sys2Proof.Machine.execSetled e drv sns s
  | .startmeas => Sys2Proof.Machine.execStartmeas s

end Sys2Proof.Machine
end

