-- ==== Sys2Proof/Machine/MeasurementReader.lean ====
section
/-! DEFINITION. The host procedure MREAD (spec 44_measurement_reader.md R250 to R260), outside the block: the host's
half only; the commands it presents run through `exec` like any other (Machine/Ports.lean). -/

namespace Sys2Proof.Machine

/-- The command MREAD presents at each of its six places (R255). -/
def mreadCommand (p : Params) : MreadCmd → Instr
  | .ctrl => .readv p.vregCtrl
  | .lux => .readmb p.vregLux 2
  | .cct => .readmb p.vregCct 2
  | .ch0 => .readmb p.vregCh0 4
  | .ch1 => .readmb p.vregCh1 4
  | .ch2 => .readmb p.vregCh2 4

/-- MREAD returns `r` (R253). -/
def HostSession.return (h : HostSession) (r : MreadResult) : HostSession :=
  { h with pos := .off, result := some r }

/-- MREAD is called: it goes to its first command; the last result is dropped. -/
def HostSession.call (h : HostSession) : HostSession := { h with pos := .issue .ctrl, result := none }

/-- The last lines of R253: LAST_LUX and LAST_CCT are updated and the snapshot returned; `z` is the value of the sixth
command. -/
def HostSession.complete (h : HostSession) (z : Word) : HostSession :=
  ({ h with lastLux := h.lux.setWidth 16, lastCct := h.cct.setWidth 16 } : HostSession).return
    (.ok { lux := h.lux, cct := h.cct,
           red := (Config.rgbMap h.x h.y z).1,
           green := (Config.rgbMap h.x h.y z).2.1,
           blue := (Config.rgbMap h.x h.y z).2.2 })

/-- MREAD goes on with the value `v` of command `k`, which ended OK (R253, R254, R255). -/
def HostSession.took (p : Params) (h : HostSession) (k : MreadCmd) (v : Word) : HostSession :=
  match k with
  | .ctrl => if ctrlDrdy p.ctrl v then { h with pos := .issue .lux } else h.return .notReady
  | .lux => { h with lux := v, pos := .issue .cct }
  | .cct => { h with cct := v, pos := .issue .ch0 }
  | .ch0 => { h with x := v, pos := .issue .ch1 }
  | .ch1 => { h with y := v, pos := .issue .ch2 }
  | .ch2 => h.complete v

/-- MREAD takes the response of command `k`: any status other than OK ends it STALLED (R256). -/
def HostSession.receive (p : Params) (h : HostSession) (k : MreadCmd) (r : Response) : HostSession :=
  if r.status = statusOk then h.took p k r.value else h.return .stalled

end Sys2Proof.Machine
end

