-- ==== Sys2Proof/Machine/Ports.lean ====
section
/-! DEFINITION. The ports (spec 10_state.md R59): what one step does for each act of the host. -/

namespace Sys2Proof.Machine

/-- The engine on its own: nothing in IDLE (R31: "waits for a command"), one engine step of the latched command in
RUN. -/
def engineStep (s : State) : Result :=
  match s.phase with
  | .idle => .next s
  | .run =>
    match instrOf s.cmd with
    | some i => exec i s
    | none => .fault .notTheRunningCommand

/-- A word at the command port: in IDLE it is decoded and runs, or is refused (R116, R117); while BUSY it is discarded,
OVERRUN is set, and the running command goes on unaffected (R287). -/
def presentWord (w : Word) (s : State) : Result :=
  match s.phase with
  | .run => engineStep { s with overrun := true }
  | .idle =>
    match decode w with
    | .ok i => exec i s
    | .error e => .next (s.illegal (decodeCause e))

/-- A step in which nothing comes from outside: the host goes on with its MREAD, if one runs, by the primitive `issue`
of R250, and the engine with its command. -/
def hostStep (s : State) : Result :=
  match s.host.pos with
  | .off => engineStep s
  | .issue k =>
    if s.busy then engineStep s
    else presentWord (encode (mreadCommand s.cfg k)) { s with host := { s.host with pos := .await k } }
  | .await k =>
    if !s.busy && s.rsp.valid then .next { s with host := s.host.receive s.cfg k s.rsp }
    else engineStep s

/-- One step under one act of the host. -/
def actStep (a : HostInput) (s : State) : Result :=
  match a with
  | .wait => hostStep s
  | .present w => presentWord w s
  | .mread =>
    if s.host.pos = .off then hostStep { s with host := s.host.call } else .fault .mreadReentered
  | .reset => .next s.blockReset

/-- The host's act in this step: the first one listed, or nothing. -/
def State.nextAct (s : State) : HostInput :=
  match s.inputs with
  | a :: _ => a
  | [] => .wait

/-- The state with that act taken off the list. -/
def State.dropAct (s : State) : State := { s with inputs := s.inputs.tail }

/-- One step of the whole machine, under any parameters (log entry 13). -/
def machineStep (s : State) : Result := actStep s.nextAct s.dropAct

/-- The state in which the host presents the word next: at the head of its acts, with the engine IDLE. -/
def State.presenting (s : State) (w : Word) : State :=
  { s with phase := .idle, inputs := .present w :: s.inputs }

end Sys2Proof.Machine
end

