-- ==== Sys2Proof/Machine/Step.lean ====
section
/-! DEFINITION. The step of the machine, and where it fetches its next command: the command port (spec 10_state.md R59;
the VRPE has no program counter and no instruction memory, R31, 20_memory.md R70). -/

namespace Sys2Proof.Machine

/-- One step: one act of the host, and at most one transport transaction of the engine (R5). -/
def step (s : State) : Host.Outcome State Fault Refusal := machineStep s

/-- The command word whose low `nbits` bits are those of `w` (the bits above 0), at the command port for the next step
(log entry 2). -/
def State.withFetchWord (s : State) (nbits w : Nat) : State :=
  s.presenting (BitVec.ofNat 32 (w % 2 ^ nbits))

end Sys2Proof.Machine
end

