-- ==== Sys2Proof/Machine/AsmText.lean ====
section
/-! DEFINITION. The assembler text (spec 30_encoding.md R121 to R123): one command per line, its pseudo-instructions and
symbolic names. Text is a list of characters. -/

namespace Sys2Proof.Machine

/-- A line's mnemonic: the six commands (R121) and the four pseudo-instructions (R122). -/
inductive AsmOp where
  | writev
  | readv
  | readmb
  | init
  | setled
  | startmeas
  | read16
  | read32
  | ledon
  | ledoff
  deriving DecidableEq, Repr

/-- The spelling of each mnemonic. -/
def asmOps : List (List Char × AsmOp) :=
  [(['W', 'R', 'I', 'T', 'E', 'V'], .writev), (['R', 'E', 'A', 'D', 'V'], .readv),
   (['R', 'E', 'A', 'D', 'M', 'B'], .readmb), (['I', 'N', 'I', 'T'], .init),
   (['S', 'E', 'T', 'L', 'E', 'D'], .setled),
   (['S', 'T', 'A', 'R', 'T', 'M', 'E', 'A', 'S'], .startmeas),
   (['R', 'E', 'A', 'D', '1', '6'], .read16), (['R', 'E', 'A', 'D', '3', '2'], .read32),
   (['L', 'E', 'D', 'O', 'N'], .ledon), (['L', 'E', 'D', 'O', 'F', 'F'], .ledoff)]

/-- The symbolic names of R123 and their values. -/
def asmNames : List (List Char × Nat) :=
  [(['D', 'R', 'I', 'V', 'E', '_', '1', '2', '_', '5', 'm', 'A'], 0),
   (['D', 'R', 'I', 'V', 'E', '_', '2', '5', 'm', 'A'], 1),
   (['D', 'R', 'I', 'V', 'E', '_', '5', '0', 'm', 'A'], 2),
   (['D', 'R', 'I', 'V', 'E', '_', '1', '0', '0', 'm', 'A'], 3),
   (['S', 'E', 'N', 'S', 'E', '_', '1', 'm', 'A'], 0),
   (['S', 'E', 'N', 'S', 'E', '_', '2', 'm', 'A'], 1),
   (['S', 'E', 'N', 'S', 'E', '_', '4', 'm', 'A'], 2),
   (['S', 'E', 'N', 'S', 'E', '_', '8', 'm', 'A'], 3),
   (['G', 'A', 'I', 'N', '_', 'x', '1'], 0),
   (['G', 'A', 'I', 'N', '_', 'x', '3', '_', '7'], 1),
   (['G', 'A', 'I', 'N', '_', 'x', '1', '6'], 2),
   (['G', 'A', 'I', 'N', '_', 'x', '6', '4'], 3)]

/-- The command of a mnemonic and its operand values; none where an operand does not fit its field or the number of
operands is wrong (R121). READMB's count must be 1 to 4, and the pseudo-instructions expand by R122. -/
def assemble : AsmOp → List Nat → Option Instr
  | .writev, [addr, data] =>
    if addr ≤ 0x7F ∧ data ≤ 0xFF then some (.writev (BitVec.ofNat 7 addr) (BitVec.ofNat 8 data)) else none
  | .readv, [addr] => if addr ≤ 0x7F then some (.readv (BitVec.ofNat 7 addr)) else none
  | .readmb, [addr, n] =>
    if addr ≤ 0x7F ∧ 1 ≤ n ∧ n ≤ 4 then some (.readmb (BitVec.ofNat 7 addr) (BitVec.ofNat 3 n)) else none
  | .init, [] => some .init
  | .setled, [e, drv, sns] =>
    if e ≤ 1 ∧ drv ≤ 3 ∧ sns ≤ 3 then
      some (.setled (BitVec.ofNat 1 e) (BitVec.ofNat 2 drv) (BitVec.ofNat 2 sns))
    else none
  | .startmeas, [] => some .startmeas
  | .read16, [addr] => if addr ≤ 0x7F then some (.readmb (BitVec.ofNat 7 addr) 2) else none
  | .read32, [addr] => if addr ≤ 0x7F then some (.readmb (BitVec.ofNat 7 addr) 4) else none
  | .ledon, [drv, sns] =>
    if drv ≤ 3 ∧ sns ≤ 3 then some (.setled 1 (BitVec.ofNat 2 drv) (BitVec.ofNat 2 sns)) else none
  | .ledoff, [] => some (.setled 0 0 0)
  | _, _ => none

/-- A space or a tab. -/
def isBlank (c : Char) : Bool := c == ' ' || c == '\t'

/-- The text without blanks at either end. -/
def trimBlanks (cs : List Char) : List Char := ((cs.dropWhile isBlank).reverse.dropWhile isBlank).reverse

/-- The pieces of a text between the separators. -/
def splitAtChar (sep : Char) : List Char → List (List Char)
  | [] => [[]]
  | c :: cs =>
    match splitAtChar sep cs with
    | [] => [[c]]
    | p :: ps => if c == sep then [] :: p :: ps else (c :: p) :: ps

/-- The value of a digit, 0 to 15. -/
def digitValue (c : Char) : Option Nat :=
  if '0' ≤ c ∧ c ≤ '9' then some (c.toNat - '0'.toNat)
  else if 'a' ≤ c ∧ c ≤ 'f' then some (c.toNat - 'a'.toNat + 10)
  else if 'A' ≤ c ∧ c ≤ 'F' then some (c.toNat - 'A'.toNat + 10)
  else none

/-- The value of digits in a base, from the value so far. -/
def digitsFrom (base : Nat) : Nat → List Char → Option Nat
  | v, [] => some v
  | v, c :: cs =>
    match digitValue c with
    | some d => if d < base then digitsFrom base (v * base + d) cs else none
    | none => none

/-- A number, decimal or hexadecimal with `0x`, at least one digit (R121). -/
def parseNumber : List Char → Option Nat
  | [] => none
  | ['0', 'x'] => none
  | '0' :: 'x' :: cs => digitsFrom 16 0 cs
  | cs => digitsFrom 10 0 cs

/-- An operand: a symbolic name (R123) or a number. -/
def parseOperand (cs : List Char) : Option Nat :=
  match asmNames.find? (fun n => n.1 == cs) with
  | some n => some n.2
  | none => parseNumber cs

/-- The operand values; a blank text holds none. -/
def parseOperands (cs : List Char) : Option (List Nat) :=
  if trimBlanks cs = [] then some []
  else ((splitAtChar ',' cs).map trimBlanks).mapM parseOperand

/-- A line of the text. -/
inductive AsmLine where
  /-- Blank, or a comment only. -/
  | blank
  | command (i : Instr)
  /-- The assembler rejects the line (R121). -/
  | rejected
  deriving DecidableEq, Repr

/-- The line a mnemonic and its operand text make. -/
def assembleWith (op : AsmOp) (operands : List Char) : AsmLine :=
  match parseOperands operands with
  | some vs =>
    match assemble op vs with
    | some i => .command i
    | none => .rejected
  | none => .rejected

/-- One line: `MNEMONIC operands`, `;` starting a comment (R121). -/
def parseLine (cs : List Char) : AsmLine :=
  let text := trimBlanks (cs.takeWhile (fun c => c != ';'))
  let word := text.takeWhile (fun c => !isBlank c)
  if text = [] then .blank
  else
    match asmOps.find? (fun o => o.1 == word) with
    | some o => assembleWith o.2 (text.dropWhile (fun c => !isBlank c))
    | none => .rejected

/-- The command words of a list of lines, in order; none if a line is rejected. -/
def assembleLines : List AsmLine → Option (List Word)
  | [] => some []
  | .blank :: ls => assembleLines ls
  | .command i :: ls => (assembleLines ls).map (fun ws => encode i :: ws)
  | .rejected :: _ => none

/-- The command words of a text, one command per line (R121). -/
def assembleText (cs : List Char) : Option (List Word) :=
  assembleLines ((splitAtChar '\n' cs).map parseLine)

end Sys2Proof.Machine
end

