-- ==== Sys2Proof/Machine/Memory.lean ====
section
/-! DEFINITION. Byte memories as lists of (address, byte) cells in one canonical form: addresses strictly rising, no cell
holding 0x00, which is what an unlisted address reads as (spec 20_memory.md R96: "all `vreg` 0x00"). The VRPE has no
memory of its own (R70): only the reference chip's virtual registers are kept so. -/

namespace Sys2Proof.Machine

/-- A byte memory. -/
abbrev Memory := List Host.Cell

/-- What an address the memory does not list reads as (R96). -/
def Memory.unlisted : Byte := 0

/-- The byte at an address. -/
def Memory.read : Memory → Nat → Byte
  | [], _ => Memory.unlisted
  | (k, b) :: m, a => if k = a then b else Memory.read m a

/-- A cell put before the cells of higher addresses, unless it holds the unlisted value. -/
def Memory.push (a : Nat) (v : Byte) (m : Memory) : Memory :=
  if v = Memory.unlisted then m else (a, v) :: m

/-- The memory with one byte written, in canonical form. -/
def Memory.write : Memory → Nat → Byte → Memory
  | [], a, v => Memory.push a v []
  | (k, b) :: m, a, v =>
    if a < k then Memory.push a v ((k, b) :: m)
    else if a = k then Memory.push a v m
    else (k, b) :: Memory.write m a v

/-- Every address listed is above `k`. -/
def Memory.above (k : Nat) (m : Memory) : Bool := m.all (fun c => decide (k < c.1))

/-- The canonical form. -/
def Memory.wf : Memory → Bool
  | [] => true
  | (k, b) :: m => decide (b ≠ Memory.unlisted) && Memory.above k m && Memory.wf m

/-- Several bytes written, the first pair first. -/
def Memory.writeAll (m : Memory) : List (Nat × Byte) → Memory
  | [] => m
  | (a, v) :: rest => (Memory.write m a v).writeAll rest

end Sys2Proof.Machine
end

