-- ==== Sys2Proof/Machine/RefChip.lean ====
section
/-! DEFINITION. The reference chip RC (spec 20_memory.md R95 to R103) and the request the engine has outstanding (R76).
RC is "the spec's own simulator model": it is no part of State and no law of the oracle (R95); `runWithChip` lets it
answer the transactions of `step`. -/

namespace Sys2Proof.Machine

/-! ### The outstanding request -/

/-- A request at the transport port (R76). -/
inductive XReq where
  | rd (p : Byte)
  | wr (p v : Byte)
  deriving DecidableEq, Repr

/-- The virtual access a command is in (R160: "Every chip access of the VRPE is a VWRITE or a VREAD"). -/
inductive Access where
  | write (a : VAddr) (d : Byte)
  | read (a : VAddr)
  deriving DecidableEq, Repr

/-- The virtual access of a running command (R165, R175, R190, R215, R220, R225). -/
def State.access (s : State) : Option Access :=
  match instrOf s.cmd with
  | some (.writev a d) => some (.write a d)
  | some (.readv a) => some (.read a)
  | some (.readmb a _) => some (.read (mbAddr a s.sub))
  | some .init => some (.write s.cfg.vregCtrl s.pend)
  | some (.setled e drv sns) => some (.write s.cfg.vregLed (ledByte s.cfg.led e drv sns))
  | some .startmeas => some (.write s.cfg.vregCtrl s.pend)
  | none => none

/-- The request of a handshake step (R161, R171). -/
def Access.request (p : Params) (acc : Access) (k : BitVec 3) : Option XReq :=
  match acc, k.toNat with
  | .write _ _, 1 => some (.rd p.pregStatus)
  | .write a _, 2 => some (.wr p.pregWrite (writeAddrByte a))
  | .write _ _, 3 => some (.rd p.pregStatus)
  | .write _ d, 4 => some (.wr p.pregWrite d)
  | .write _ _, 5 => some (.rd p.pregStatus)
  | .read _, 1 => some (.rd p.pregStatus)
  | .read a, 2 => some (.wr p.pregWrite (readAddrByte a))
  | .read _, 3 => some (.rd p.pregStatus)
  | .read _, 4 => some (.rd p.pregRead)
  | _, _ => none

/-- The request the engine issues in its next engine step: one in RUN, none in IDLE (R31). -/
def State.request (s : State) : Option XReq :=
  match s.phase with
  | .idle => none
  | .run =>
    match s.access with
    | some acc => acc.request s.cfg s.step
    | none => none

/-! ### The chip -/

/-- RC's handshake phase `wph` (R96). -/
inductive ChipPhase where
  | idle
  | waitData
  deriving DecidableEq, Repr

/-- A deferred change of one of RC's flags (R96, R97). -/
inductive FlagChange where
  | tx (value : Bool)
  | rx (value : Bool)
  deriving DecidableEq, Repr

/-- RC state (R96). -/
structure RefChip where
  vreg : Memory
  tx : Bool
  rx : Bool
  wph : ChipPhase
  laddr : VAddr
  rbuf : Byte
  /-- Deferred flag changes with their delays, oldest first. -/
  pend : List (Nat × FlagChange)
  /-- LAT. -/
  lat : Nat
  /-- `stuck_tx`. -/
  stuckTx : Bool
  /-- `fail_at`. -/
  failAt : List Nat
  /-- How many transactions RC has seen; they are counted from 1 (R96). -/
  count : Nat
  deriving DecidableEq, Repr

/-- The initial RC state (R96). `laddr` and `rbuf` are given no value there; 0 is the model's, and nothing reads them
before they are written. -/
def RefChip.initial : RefChip :=
  { vreg := [], tx := false, rx := false, wph := .idle, laddr := 0, rbuf := 0, pend := [], lat := 0,
    stuckTx := false, failAt := [], count := 0 }

/-- One flag change takes place. -/
def RefChip.applyChange (rc : RefChip) : FlagChange → RefChip
  | .tx b => { rc with tx := b }
  | .rx b => { rc with rx := b }

/-- Every deferred change with delay 0 takes place, in order; the others wait one read less (R97). -/
def RefChip.elapse (rc : RefChip) : List (Nat × FlagChange) → RefChip
  | [] => { rc with pend := [] }
  | (0, c) :: rest => (rc.applyChange c).elapse rest
  | (k + 1, c) :: rest =>
    let after := rc.elapse rest
    { after with pend := (k, c) :: after.pend }

/-- "schedule … with latency" (R97). -/
def RefChip.schedule (rc : RefChip) (c : FlagChange) : RefChip := { rc with pend := rc.pend ++ [(rc.lat, c)] }

/-- The STATUS byte: the two flags at their bits, all other bits 0 (R97). -/
def statusByte (p : Params) (tx rx : Bool) : Byte :=
  ((BitVec.ofBool tx).setWidth 8 <<< p.txBit.val) ||| ((BitVec.ofBool rx).setWidth 8 <<< p.rxBit.val)

/-- `vwrite(a, v)` (R102): a control byte with RST = 1 resets the chip, any other byte is stored. -/
def RefChip.vwrite (p : Params) (rc : RefChip) (a : VAddr) (v : Byte) : RefChip :=
  if a = p.vregCtrl ∧ ctrlRst p.ctrl v = 1#1 then { rc with vreg := [], pend := [], rx := false }
  else { rc with vreg := rc.vreg.write a.toNat v }

/-- A byte written to WRITE (R98, R99, R100). -/
def RefChip.takeByte (p : Params) (rc : RefChip) (v : Byte) : RefChip :=
  match rc.wph with
  | .waitData => ({ rc.vwrite p rc.laddr v with wph := .idle } : RefChip).schedule (.tx false)
  | .idle =>
    if v.getLsbD 7 then
      ({ rc with laddr := v.setWidth 7, wph := .waitData } : RefChip).schedule (.tx true)
    else
      ({ rc with rbuf := rc.vreg.read v.toNat } : RefChip).schedule (.rx true)

/-- RC's answer to a request whose index is not in `fail_at` (R97 to R101). -/
def RefChip.serve (p : Params) (rc : RefChip) : XReq → Answer × RefChip
  | .rd r =>
    if r = p.pregStatus then
      let after := rc.elapse rc.pend
      (.ok (statusByte p (after.tx || after.stuckTx) after.rx), after)
    else if r = p.pregRead then (.ok rc.rbuf, { rc with rx := false })
    else (.ok 0, rc)
  | .wr r v => if r = p.pregWrite then (.ok 0, rc.takeByte p v) else (.ok 0, rc)

/-- One transaction: counted, then failed with code 1 or served (R96, R101). -/
def RefChip.transact (p : Params) (rc : RefChip) (q : XReq) : Answer × RefChip :=
  let counted := { rc with count := rc.count + 1 }
  if counted.count ∈ rc.failAt then (.fail 1, counted) else counted.serve p q

/-- The harness action `convert(img)` (R103): the image is written and DRDY set. -/
def RefChip.convert (p : Params) (rc : RefChip) (img : List (Nat × Byte)) : RefChip :=
  let filled := rc.vreg.writeAll img
  { rc with vreg := filled.write p.vregCtrl.toNat (filled.read p.vregCtrl.toNat ||| (1#8 <<< p.ctrl.drdy.val)) }

/-- RC answers the request, if there is one and no block reset comes first: its answer goes to the head of the tape. -/
def chipAnswers (rc : RefChip) (s : State) : State × RefChip :=
  match s.nextAct, s.request with
  | .reset, _ => (s, rc)
  | _, some q => ({ s with tape := (rc.transact s.cfg q).1 :: s.tape }, (rc.transact s.cfg q).2)
  | _, none => (s, rc)

/-- `k` steps with RC as the chip; stops at the first fault. -/
def runWithChip : Nat → RefChip → State → Host.Outcome (State × RefChip) Fault Refusal
  | 0, rc, s => .next (s, rc)
  | k + 1, rc, s =>
    match step (chipAnswers rc s).1 with
    | .next t => runWithChip k (chipAnswers rc s).2 t
    | .fault r => .fault r
    | .refused r => .refused r

end Sys2Proof.Machine
end

