-- ==== Sys2Proof/Safety.lean ====
section
/-! DEFINITION. What counts as a safe run, in the terms the statements use: the fault bit, the invariant of the machine,
the order of a handshake's transactions in the trace, and answer lists under which a handshake succeeds. -/

namespace Sys2Proof.Machine

/-- R39, R287: "A model treats a state with OVERRUN = 1 as faulted". -/
def State.faulted (s : State) : Bool := s.overrun

/-- No act of the host is listed and no MREAD runs: the engine is on its own. -/
def State.alone (s : State) : Prop := s.inputs = [] ∧ s.host.pos = .off

/-- `k` steps of the machine, stopping at the first fault. -/
def runSteps (k : Nat) (s : State) : Result := Host.Core.run Sys2Proof.core k s

/-- The bits of a command word that the format of a defined opcode uses (R112); none for a reserved opcode. -/
def usedBits : Nat → Word
  | 1 => 0xF0007FFF
  | 2 => 0xF0007F00
  | 3 => 0xF7007F00
  | 4 => 0xF0000000
  | 5 => 0xF100000F
  | 6 => 0xF0000000
  | _ => 0

/-- The event of a request answered with `b`. -/
def XReq.okEvent (p : Params) (b : Byte) : XReq → XEvent
  | .rd r => .rdOk p.devAddr r b
  | .wr r v => .wrOk p.devAddr r v

/-- The event of a request that failed with the code `c`, one of XERR_W bits (R17). -/
def XReq.failEvent (p : Params) (c : Nat) : XReq → XEvent
  | .rd r => .rdFail p.devAddr r c
  | .wr r v => .wrFail p.devAddr r v c

/-! ### The invariant -/

/-- The handshake steps that poll, and the condition each polls for (R161, R171). -/
def Access.polls : Access → BitVec 3 → Option PollCond
  | .write _ _, k => if k = 1#3 ∨ k = 5#3 then some .txClear else if k = 3#3 then some .txSet else none
  | .read _, k => if k = 1#3 then some .txClear else if k = 3#3 then some .rxSet else none

/-- The handshake steps of a virtual access: 1 to 5 of a write, 1 to 4 of a read. -/
def Access.hasStep : Access → BitVec 3 → Bool
  | .write _ _, k => decide (1 ≤ k.toNat) && decide (k.toNat ≤ 5)
  | .read _, k => decide (1 ≤ k.toNat) && decide (k.toNat ≤ 4)

/-- How many virtual accesses a command makes (R33). -/
def accessCount : Instr → Nat
  | .readmb _ n => n.toNat
  | .init => 2
  | .writev _ _ => 1
  | .readv _ => 1
  | .setled _ _ _ => 1
  | .startmeas => 1

/-- What the response registers may hold (R50, R51, R286): OK, STALLED or ILLEGAL, never NOT_READY (R280), with the
diagnosis each status has. -/
def Response.legal (p : Params) (r : Response) : Prop :=
  (r.status = statusOk ∧ r.cause = 0 ∧ r.step = 0 ∧ r.sub = 0 ∧ r.xerr = 0)
  ∨ (r.status = statusStalled ∧ r.cause = StallCause.timeout.code ∧ (r.step = 1 ∨ r.step = 3 ∨ r.step = 5)
      ∧ r.xerr = 0)
  ∨ (r.status = statusStalled ∧ r.cause = StallCause.transport.code ∧ 1 ≤ r.step.toNat ∧ r.step.toNat ≤ 5
      ∧ r.xerr < 2 ^ p.xerrW)
  ∨ (r.status = statusIllegal ∧ (∃ c : IllegalCause, r.cause = c.code) ∧ r.step = 0 ∧ r.sub = 0 ∧ r.xerr = 0)

/-- The invariant of the machine. -/
structure Inv (s : State) : Prop where
  /-- R12, R252. -/
  config : s.cfg.wf = true
  /-- R31 to R33: in RUN the latch holds a command that passed its checks, at a position its pseudocode has. -/
  running : s.phase = .run → ∃ i acc, s.cmd = latchOf i ∧ operandCheck s.cfg s.initDone i = none
    ∧ s.sub.toNat < accessCount i ∧ s.access = some acc ∧ acc.hasStep s.step = true
  /-- R50: no response stands while a command runs. -/
  invalid : s.phase = .run → s.rsp.valid = false
  /-- R149: "`pcnt` never exceeds POLL_BUDGET". -/
  budget : s.pcnt.toNat ≤ s.cfg.pollBudget
  /-- R145: a polling step that goes on has budget left. -/
  polling : s.phase = .run → ∀ acc, s.access = some acc → (acc.polls s.step).isSome = true →
    s.pcnt.toNat < s.cfg.pollBudget
  /-- R215: while INIT runs the controller is UNINIT, and PEND is the byte of its current write. -/
  initPend : s.phase = .run → s.cmd = latchOf .init → s.initDone = false
    ∧ s.pend = if s.sub = 0 then ctrlResetWord s.cfg else defaultCfg s.cfg
  /-- R225: while STARTMEAS runs PEND is the byte built from the shadow. -/
  measPend : s.phase = .run → s.cmd = latchOf .startmeas → s.pend = triggerByte s.cfg s.ctrlShadow
  /-- R210: in UNINIT the shadow is 0x00. -/
  uninit : s.initDone = false → s.ctrlShadow = 0
  /-- R210, R226: in READY the shadow is a control byte with RST 0, the default INT and GAIN, and the default or the
  trigger mode. -/
  ready : s.initDone = true → ∃ m, (m = s.cfg.defaultMode ∨ m = s.cfg.triggerMode)
    ∧ s.ctrlShadow = ctrlByte s.cfg.ctrl 0 s.cfg.defaultInt s.cfg.defaultGain m
  /-- R191: ACC holds the bytes of the accesses done, so `ACC << 8` discards no set bit. -/
  assembling : s.phase = .run → s.cmd.op = 3 → s.acc.toNat < 2 ^ (8 * s.sub.toNat)
  /-- R50, R51, R286. -/
  response : s.rsp.legal s.cfg

/-! ### The order of transactions -/

/-- R71: STATUS and READ are only read, WRITE is only written, all at DEV_ADDR. -/
def XEvent.directed (p : Params) : XEvent → Prop
  | .rdOk dev r _ => dev = p.devAddr ∧ (r = p.pregStatus ∨ r = p.pregRead)
  | .rdFail dev r _ => dev = p.devAddr ∧ (r = p.pregStatus ∨ r = p.pregRead)
  | .wrOk dev r _ => dev = p.devAddr ∧ r = p.pregWrite
  | .wrFail dev r _ _ => dev = p.devAddr ∧ r = p.pregWrite

/-- A STATUS read, answered with a byte or a failure. -/
def XEvent.isStatusRead (p : Params) : XEvent → Prop
  | .rdOk dev r _ => dev = p.devAddr ∧ r = p.pregStatus
  | .rdFail dev r _ => dev = p.devAddr ∧ r = p.pregStatus
  | .wrOk _ _ _ => False
  | .wrFail _ _ _ _ => False

/-- A STATUS read whose byte met the condition. -/
def XEvent.shows (p : Params) (c : PollCond) : XEvent → Prop
  | .rdOk dev r b => dev = p.devAddr ∧ r = p.pregStatus ∧ c.holds p b = true
  | .rdFail _ _ _ => False
  | .wrOk _ _ _ => False
  | .wrFail _ _ _ _ => False

/-- The address byte of a virtual access (R72). -/
def Access.addressByte : Access → Byte
  | .write a _ => writeAddrByte a
  | .read a => readAddrByte a

/-- The condition a virtual access waits for after its address byte (R161, R171). -/
def Access.latched : Access → PollCond
  | .write _ _ => .txSet
  | .read _ => .rxSet

/-- The trace (newest first) is STATUS reads, then the WRITE transaction of the byte `v`. -/
def sinceWrite (p : Params) (v : Byte) (tr : List XEvent) : Prop :=
  ∃ reads older, tr = reads ++ XEvent.wrOk p.devAddr p.pregWrite v :: older ∧ ∀ e ∈ reads, e.isStatusRead p

/-- R83, R162: what the trace shows at each step of the running virtual access. -/
def orderedAt (p : Params) (acc : Access) (k : BitVec 3) (tr : List XEvent) : Prop :=
  (k = 2#3 → ∃ e older, tr = e :: older ∧ e.shows p .txClear)
  ∧ (k = 3#3 → sinceWrite p acc.addressByte tr)
  ∧ (k = 4#3 → ∃ e older, tr = e :: older ∧ e.shows p acc.latched ∧ sinceWrite p acc.addressByte older)
  ∧ (k = 5#3 → ∀ a d, acc = .write a d → sinceWrite p d tr)

/-- The trace agrees with the position of the running command. -/
def HandshakeOrder (s : State) : Prop :=
  s.phase = .run → ∀ acc, s.access = some acc → orderedAt s.cfg acc s.step s.trace

/-! ### Answers under which a handshake succeeds -/

/-- A STATUS answer on which POLL reads again while budget lasts: a byte without the condition, or, under RETRY, a
failure with a code of XERR_W bits (R17, R145, R148). -/
def Answer.misses (p : Params) (c : PollCond) : Answer → Bool
  | .ok b => !c.holds p b
  | .fail c => decide (p.pollXfail = .retry) && decide (c < 2 ^ p.xerrW)
  | .silent => false

/-- The answers of one successful POLL: those that miss, then the byte that shows the condition. -/
structure PollAnswers where
  missed : List Answer
  hit : Byte
  deriving DecidableEq, Repr

/-- R146: the hit is read k-th, 1 <= k <= POLL_BUDGET. -/
def PollAnswers.good (p : Params) (c : PollCond) (q : PollAnswers) : Bool :=
  q.missed.all (Answer.misses p c) && (decide (q.missed.length < p.pollBudget) && c.holds p q.hit)

/-- As the tape lists them. -/
def PollAnswers.answers (q : PollAnswers) : List Answer := q.missed ++ [.ok q.hit]

/-- The event of one STATUS answer, a failure code being one of XERR_W bits (R17). -/
def statusEvent (p : Params) : Answer → List XEvent
  | .ok b => [.rdOk p.devAddr p.pregStatus b]
  | .fail c => [.rdFail p.devAddr p.pregStatus c]
  | .silent => []

/-- The STATUS reads of a POLL, in the order they were made. -/
def PollAnswers.events (p : Params) (q : PollAnswers) : List XEvent := q.answers.flatMap (statusEvent p)

/-- The answers of one successful VWRITE (R161). -/
structure WriteAnswers where
  poll1 : PollAnswers
  ack2 : Byte
  poll3 : PollAnswers
  ack4 : Byte
  poll5 : PollAnswers
  deriving DecidableEq, Repr

def WriteAnswers.good (p : Params) (h : WriteAnswers) : Bool :=
  h.poll1.good p .txClear && (h.poll3.good p .txSet && h.poll5.good p .txClear)

def WriteAnswers.answers (h : WriteAnswers) : List Answer :=
  h.poll1.answers ++ .ok h.ack2 :: h.poll3.answers ++ .ok h.ack4 :: h.poll5.answers

/-- R161: "k1 STATUS reads, the address write, k3 STATUS reads, the data write, k5 STATUS reads". -/
def WriteAnswers.events (p : Params) (a : VAddr) (d : Byte) (h : WriteAnswers) : List XEvent :=
  h.poll1.events p ++ .wrOk p.devAddr p.pregWrite (writeAddrByte a) :: h.poll3.events p
    ++ .wrOk p.devAddr p.pregWrite d :: h.poll5.events p

/-- The answers of one successful VREAD (R171); `data` is the byte READ gives. -/
structure ReadAnswers where
  poll1 : PollAnswers
  ack2 : Byte
  poll3 : PollAnswers
  data : Byte
  deriving DecidableEq, Repr

def ReadAnswers.good (p : Params) (h : ReadAnswers) : Bool :=
  h.poll1.good p .txClear && h.poll3.good p .rxSet

def ReadAnswers.answers (h : ReadAnswers) : List Answer :=
  h.poll1.answers ++ .ok h.ack2 :: h.poll3.answers ++ [.ok h.data]

/-- R171: "k1 STATUS reads, the address write, k3 STATUS reads, the READ read". -/
def ReadAnswers.events (p : Params) (a : VAddr) (h : ReadAnswers) : List XEvent :=
  h.poll1.events p ++ .wrOk p.devAddr p.pregWrite (readAddrByte a) :: h.poll3.events p
    ++ [.rdOk p.devAddr p.pregRead h.data]

/-- The events of a READMB's VREADs, at consecutive addresses from `a` (R195). -/
def mbEvents (p : Params) (a : VAddr) : List ReadAnswers → List XEvent
  | [] => []
  | h :: hs => h.events p a ++ mbEvents p (a + 1) hs

/-- The reference chip at rest, answering at once and never failing (R96: its initial flags, LAT = 0). -/
def RefChip.atRest (rc : RefChip) : Prop :=
  rc.tx = false ∧ rc.rx = false ∧ rc.wph = .idle ∧ rc.pend = [] ∧ rc.lat = 0 ∧ rc.stuckTx = false ∧ rc.failAt = []

/-- R191: `sum over i of b_i * 2^(8*(n-1-i))`. -/
def bigEndian : List Byte → Nat
  | [] => 0
  | b :: bs => b.toNat * 2 ^ (8 * bs.length) + bigEndian bs

/-- The most transactions a command issues (R333). -/
def maxTransactions (b : Nat) : Instr → Nat
  | .writev _ _ => 3 * b + 2
  | .readv _ => 2 * b + 2
  | .readmb _ n => n.toNat * (2 * b + 2)
  | .init => 2 * (3 * b + 2)
  | .setled _ _ _ => 3 * b + 2
  | .startmeas => 3 * b + 2

/-- The fewest transactions a command ends OK with (R333). -/
def minTransactionsOk : Instr → Nat
  | .writev _ _ => 5
  | .readv _ => 4
  | .readmb _ n => 4 * n.toNat
  | .init => 10
  | .setled _ _ _ => 5
  | .startmeas => 5

end Sys2Proof.Machine
end

