-- ==== Sys2Proof/Certificates/Slice0/Obligations.lean ====
section
/-! DEFINITION. The statements for the provers. Each docstring names the rule of spec/ it formalises. -/

open Sys2Proof Sys2Proof.Machine

/-! ### Encoding -/

/-- R125: the worked encodings, the legal ones as commands and as words, the others by their cause (at the reference
parameters). -/
def Obligations.WorkedEncodingsOfTheSpec : Prop :=
  (decode 0x100005FF = .ok (.writev 0x05 0xFF) ∧ encode (.writev 0x05 0xFF) = 0x100005FF)
  ∧ (decode 0x20000400 = .ok (.readv 0x04) ∧ encode (.readv 0x04) = 0x20000400)
  ∧ (decode 0x32003C00 = .ok (.readmb 0x3C 2) ∧ encode (.readmb 0x3C 2) = 0x32003C00)
  ∧ (decode 0x34001400 = .ok (.readmb 0x14 4) ∧ encode (.readmb 0x14 4) = 0x34001400)
  ∧ (decode 0x40000000 = .ok .init ∧ encode .init = 0x40000000)
  ∧ (decode 0x5100000A = .ok (.setled 1 2 2) ∧ encode (.setled 1 2 2) = 0x5100000A)
  ∧ (decode 0x50000000 = .ok (.setled 0 0 0) ∧ encode (.setled 0 0 0) = 0x50000000)
  ∧ (decode 0x60000000 = .ok .startmeas ∧ encode .startmeas = 0x60000000)
  ∧ classify Params.reference true 0x20008400 = .error .rsvdBits
  ∧ classify Params.reference true 0x30001000 = .error .count
  ∧ classify Params.reference true 0x34007E00 = .error .addr
  ∧ classify Params.reference true 0x10000400 = .error .prot

/-- R112 to R114: decoding an encoded command gives it back, for every command and every operand value. -/
def Obligations.DecodeOfEncodeIsTheCommand : Prop := ∀ i : Instr, decode (encode i) = .ok i

/-- R112, R113: each legal word has one meaning, and that meaning has that word. -/
def Obligations.EncodeOfDecodeIsTheWord : Prop := ∀ (w : Word) (i : Instr), decode w = .ok i → encode i = w

/-- R116: a word with a reserved opcode is refused with ILLEGAL cause RSVD_OP, no transaction is issued and only the
response changes (RSP_VALUE to a free value). -/
def Obligations.ReservedOpcodeIsRefused : Prop :=
  ∀ (s : State) (w : Word) (rest : List HostInput), s.phase = .idle →
    s.inputs = .present w :: rest → (w.toNat / 2 ^ 28 = 0 ∨ 7 ≤ w.toNat / 2 ^ 28) →
    step s = .next { s with
      inputs := rest
      rsp := { valid := true, status := 3, cause := 0, step := 0, sub := 0, xerr := 0,
               value := Config.freeWord s.free }
      free := s.free + 1 }

/-- R117: a word with a defined opcode and a bit set outside its format is refused with ILLEGAL cause RSVD_BITS. -/
def Obligations.ReservedBitIsRefused : Prop :=
  ∀ (s : State) (w : Word) (rest : List HostInput), s.phase = .idle →
    s.inputs = .present w :: rest → 1 ≤ w.toNat / 2 ^ 28 → w.toNat / 2 ^ 28 ≤ 6 →
    w &&& ~~~(usedBits (w.toNat / 2 ^ 28)) ≠ 0 →
    step s = .next { s with
      inputs := rest
      rsp := { valid := true, status := 3, cause := 1, step := 0, sub := 0, xerr := 0,
               value := Config.freeWord s.free }
      free := s.free + 1 }

/-- R118, R119, R124: every word is one of the six commands or ILLEGAL with exactly one cause, the first that holds in
the order RSVD_OP, RSVD_BITS, COUNT, ADDR, PROT, NOINIT; and that is what the step reports which takes the word in IDLE:
ILLEGAL with that cause and nothing but the response changed (RSP_VALUE to a free value), or the command accepted. -/
def Obligations.FirstFailingCheckIsTheCause : Prop :=
  (∀ (p : Params) (initDone : Bool) (w : Word),
    classify p initDone w =
      if w.toNat / 2 ^ 28 = 0 ∨ 7 ≤ w.toNat / 2 ^ 28 then .error .rsvdOp
      else if w &&& ~~~(usedBits (w.toNat / 2 ^ 28)) ≠ 0 then .error .rsvdBits
      else if w.toNat / 2 ^ 28 = 3 ∧ (w.toNat / 2 ^ 24 % 8 = 0 ∨ 5 ≤ w.toNat / 2 ^ 24 % 8) then .error .count
      else if w.toNat / 2 ^ 28 = 3 ∧ 0x7F < w.toNat / 2 ^ 8 % 128 + w.toNat / 2 ^ 24 % 8 - 1 then .error .addr
      else if w.toNat / 2 ^ 28 = 1 ∧ ((w >>> 8).setWidth 7 = p.vregCtrl ∨ (w >>> 8).setWidth 7 = p.vregLed) then
        .error .prot
      else if w.toNat / 2 ^ 28 = 6 ∧ initDone = false then .error .noinit
      else if w.toNat / 2 ^ 28 = 1 then .ok (.writev ((w >>> 8).setWidth 7) (w.setWidth 8))
      else if w.toNat / 2 ^ 28 = 2 then .ok (.readv ((w >>> 8).setWidth 7))
      else if w.toNat / 2 ^ 28 = 3 then .ok (.readmb ((w >>> 8).setWidth 7) ((w >>> 24).setWidth 3))
      else if w.toNat / 2 ^ 28 = 4 then .ok .init
      else if w.toNat / 2 ^ 28 = 5 then
        .ok (.setled ((w >>> 24).setWidth 1) ((w >>> 2).setWidth 2) (w.setWidth 2))
      else .ok .startmeas)
  ∧ ∀ (s : State) (w : Word) (rest : List HostInput), s.phase = .idle → s.inputs = .present w :: rest →
    (∀ c : IllegalCause, classify s.cfg s.initDone w = .error c → step s = .next { s with
      inputs := rest
      rsp := { valid := true, status := 3, cause := c.code, step := 0, sub := 0, xerr := 0,
               value := Config.freeWord s.free }
      free := s.free + 1 })
    ∧ ∀ i : Instr, classify s.cfg s.initDone w = .ok i →
      ∃ t : State, step s = .next t ∧ t.phase = .run ∧ t.cmd = latchOf i ∧ t.rsp.valid = false
        ∧ t.inputs = rest ∧ t.trace = s.trace

/-! ### The step and its ports -/

/-- R31, R59: in IDLE, when the word at the command port decodes to a command (well-formed or not), the step is `exec`
of it, at the state with the word taken off the port. -/
def Obligations.StepRunsThePresentedCommand : Prop :=
  ∀ (s : State) (w : Word) (rest : List HostInput) (i : Instr), s.phase = .idle →
    s.inputs = .present w :: rest → decode w = .ok i → step s = exec i { s with inputs := rest }

/-- R31: with nothing presented and no MREAD running, the step is `exec` of the latched command in RUN, and in IDLE
nothing happens. -/
def Obligations.EngineOnItsOwnRunsTheLatchedCommand : Prop :=
  (∀ (s : State) (i : Instr), s.phase = .run → s.alone → s.cmd = latchOf i → step s = exec i s)
  ∧ ∀ s : State, s.phase = .idle → s.alone → step s = .next s

/-- R287: a word presented while BUSY is discarded, OVERRUN is set and stays 1 until block reset, and the running command
goes on exactly as if nothing had been presented: the step that takes nothing, with OVERRUN set in its next state. -/
def Obligations.WordPresentedWhileBusyOverruns : Prop :=
  (∀ (s u : State) (w : Word) (rest : List HostInput), s.phase = .run → s.inputs = .present w :: rest →
    step { s with inputs := .wait :: rest } = .next u → step s = .next { u with overrun := true })
  ∧ (∀ (s t : State) (w : Word) (rest : List HostInput), s.phase = .run → s.inputs = .present w :: rest →
    step s = .next t → t.faulted = true)
  ∧ (∀ s t : State, s.overrun = true → s.nextAct ≠ .reset → step s = .next t → t.overrun = true)

/-- R320, R56: block reset, at any moment, puts every VRPE register at its reset value (VBYTE, PEND and RSP_VALUE are
UNSPECIFIED there), abandons a running command and issues no transaction; the chip's side is not touched (R321). That the
host's session and its acts to come stand is the model's choice (log entry 16). -/
def Obligations.BlockResetClearsTheBlock : Prop :=
  ∀ (s : State) (rest : List HostInput), s.inputs = .reset :: rest →
    ∃ t : State, step s = .next t ∧ t.phase = .idle
      ∧ t.cmd = { op := 0, a := 0, d := 0, n := 0, e := 0, drv := 0, sns := 0 }
      ∧ t.sub = 0 ∧ t.step = 0 ∧ t.pcnt = 0 ∧ t.acc = 0 ∧ t.ctrlShadow = 0 ∧ t.initDone = false ∧ t.overrun = false
      ∧ t.rsp.valid = false ∧ t.rsp.status = 0 ∧ t.rsp.cause = 0 ∧ t.rsp.step = 0 ∧ t.rsp.sub = 0 ∧ t.rsp.xerr = 0
      ∧ t.trace = s.trace ∧ t.tape = s.tape ∧ t.host = s.host ∧ t.cfg = s.cfg ∧ t.inputs = rest

/-- R53: the bits of ESTAT. -/
def Obligations.EstatShowsTheEngine : Prop :=
  ∀ s : State, s.estat.getLsbD 0 = decide (s.phase = .run) ∧ s.estat.getLsbD 1 = s.initDone
    ∧ s.estat.getLsbD 2 = s.overrun ∧ s.estat.getLsbD 3 = s.rsp.valid
    ∧ s.estat.extractLsb' 4 4 = 0#4 ∧ s.estat.extractLsb' 8 8 = s.ctrlShadow

/-- R56: what reset leaves in the registers the spec gives a reset value. -/
def Obligations.ResetLeavesTheSpecsValues : Prop :=
  State.reset.phase = .idle ∧ State.reset.cmd = { op := 0, a := 0, d := 0, n := 0, e := 0, drv := 0, sns := 0 }
  ∧ State.reset.sub = 0 ∧ State.reset.step = 0 ∧ State.reset.pcnt = 0 ∧ State.reset.acc = 0
  ∧ State.reset.ctrlShadow = 0 ∧ State.reset.initDone = false ∧ State.reset.overrun = false
  ∧ State.reset.rsp.valid = false ∧ State.reset.rsp.status = 0 ∧ State.reset.rsp.cause = 0
  ∧ State.reset.rsp.step = 0 ∧ State.reset.rsp.sub = 0 ∧ State.reset.rsp.xerr = 0
  ∧ State.reset.estat = 0

/-! ### Accepting a command -/

/-- R165, R32: a WRITEV to an unprotected address is accepted in IDLE: its operands are latched, RSP_VALID is cleared,
the first poll is next, and nothing else changes (RSP_VALUE is UNSPECIFIED while it runs). That acceptance is a step of its
own that leaves the position at the first poll is the model's choice (log entry 10; so for every acceptance below). -/
def Obligations.WritevIsAccepted : Prop :=
  ∀ (a : VAddr) (d : Byte) (s : State), s.phase = .idle → a ≠ s.cfg.vregCtrl → a ≠ s.cfg.vregLed →
    exec (.writev a d) s = .next { s with
      phase := .run, cmd := { op := 1, a := a, d := d, n := 0, e := 0, drv := 0, sns := 0 }
      sub := 0, step := 1, pcnt := 0
      rsp := { s.rsp with valid := false, value := Config.freeWord s.free }, free := s.free + 1 }

/-- R166: WRITEV to VREG_CTRL or VREG_LED is refused with PROT, with no transaction; READV of either is accepted. -/
def Obligations.ControllerRegistersAreWriteProtected : Prop :=
  ∀ (a : VAddr) (d : Byte) (s : State), s.phase = .idle → (a = s.cfg.vregCtrl ∨ a = s.cfg.vregLed) →
    exec (.writev a d) s = .next { s with
      rsp := { valid := true, status := 3, cause := 4, step := 0, sub := 0, xerr := 0,
               value := Config.freeWord s.free }
      free := s.free + 1 }
    ∧ ∃ t : State, exec (.readv a) s = .next t ∧ t.phase = .run ∧ t.cmd.op = 2 ∧ t.cmd.a = a

/-- R175, R32: READV is accepted in IDLE whatever its address. -/
def Obligations.ReadvIsAccepted : Prop :=
  ∀ (a : VAddr) (s : State), s.phase = .idle →
    exec (.readv a) s = .next { s with
      phase := .run, cmd := { op := 2, a := a, d := 0, n := 0, e := 0, drv := 0, sns := 0 }
      sub := 0, step := 1, pcnt := 0
      rsp := { s.rsp with valid := false, value := Config.freeWord s.free }, free := s.free + 1 }

/-- R190, R32, R34: a READMB of 1 to 4 bytes inside the address space is accepted in IDLE, with ACC set to 0. -/
def Obligations.ReadmbIsAccepted : Prop :=
  ∀ (a : VAddr) (n : BitVec 3) (s : State), s.phase = .idle → 1 ≤ n.toNat → n.toNat ≤ 4 →
    a.toNat + n.toNat - 1 ≤ 0x7F →
    exec (.readmb a n) s = .next { s with
      phase := .run, cmd := { op := 3, a := a, d := 0, n := n, e := 0, drv := 0, sns := 0 }
      sub := 0, step := 1, pcnt := 0, acc := 0
      rsp := { s.rsp with valid := false, value := Config.freeWord s.free }, free := s.free + 1 }

/-- R192: READMB's range checks at accept, COUNT before ADDR, and the addresses of its accesses. -/
def Obligations.ReadmbRangeIsChecked : Prop :=
  ∀ (a : VAddr) (n : BitVec 3) (s : State), s.phase = .idle →
    ((n.toNat = 0 ∨ 5 ≤ n.toNat) → exec (.readmb a n) s = .next { s with
      rsp := { valid := true, status := 3, cause := 3, step := 0, sub := 0, xerr := 0,
               value := Config.freeWord s.free }
      free := s.free + 1 })
    ∧ (1 ≤ n.toNat → n.toNat ≤ 4 → 0x7F < a.toNat + n.toNat - 1 → exec (.readmb a n) s = .next { s with
      rsp := { valid := true, status := 3, cause := 2, step := 0, sub := 0, xerr := 0,
               value := Config.freeWord s.free }
      free := s.free + 1 })
    ∧ (1 ≤ n.toNat → n.toNat ≤ 4 → a.toNat + n.toNat - 1 ≤ 0x7F → ∀ j : BitVec 2, j.toNat < n.toNat →
      (mbAddr a j).toNat = a.toNat + j.toNat ∧ a.toNat + j.toNat ≤ 0x7F)

/-- R215: INIT is accepted in either state of the controller: INIT_DONE and CTRL_SHADOW are cleared at accept, and PEND
holds the reset word. -/
def Obligations.InitIsAccepted : Prop :=
  ∀ s : State, s.phase = .idle →
    exec .init s = .next { s with
      phase := .run, cmd := { op := 4, a := 0, d := 0, n := 0, e := 0, drv := 0, sns := 0 }
      sub := 0, step := 1, pcnt := 0, initDone := false, ctrlShadow := 0
      pend := ctrlByte s.cfg.ctrl 1 0 0 0
      rsp := { s.rsp with valid := false, value := Config.freeWord s.free }, free := s.free + 1 }

/-- R220: SETLED is accepted in either state of the controller, which it does not change. -/
def Obligations.SetledIsAccepted : Prop :=
  ∀ (e : BitVec 1) (drv sns : BitVec 2) (s : State), s.phase = .idle →
    exec (.setled e drv sns) s = .next { s with
      phase := .run, cmd := { op := 5, a := 0, d := 0, n := 0, e := e, drv := drv, sns := sns }
      sub := 0, step := 1, pcnt := 0
      rsp := { s.rsp with valid := false, value := Config.freeWord s.free }, free := s.free + 1 }

/-- R225: STARTMEAS is accepted when INIT_DONE = 1, with the byte it will write in PEND, and refused with NOINIT, with
nothing but the response changed, when INIT_DONE = 0. -/
def Obligations.StartmeasNeedsInit : Prop :=
  ∀ s : State, s.phase = .idle →
    (s.initDone = true → exec .startmeas s = .next { s with
      phase := .run, cmd := { op := 6, a := 0, d := 0, n := 0, e := 0, drv := 0, sns := 0 }
      sub := 0, step := 1, pcnt := 0
      pend := ctrlByte s.cfg.ctrl 0 (ctrlInt s.cfg.ctrl s.ctrlShadow) (ctrlGain s.cfg.ctrl s.ctrlShadow)
        s.cfg.triggerMode
      rsp := { s.rsp with valid := false, value := Config.freeWord s.free }, free := s.free + 1 })
    ∧ (s.initDone = false → exec .startmeas s = .next { s with
      rsp := { valid := true, status := 3, cause := 5, step := 0, sub := 0, xerr := 0,
               value := Config.freeWord s.free }
      free := s.free + 1 })

/-! ### The last transaction of a command -/

/-- R165, R161: the STATUS read that shows TX_PENDING clear at step 5 ends WRITEV with OK and value 0; nothing else
changes. -/
def Obligations.WritevEndsOk : Prop :=
  ∀ (a : VAddr) (d b : Byte) (rest : List Answer) (s : State), s.phase = .run →
    s.cmd = latchOf (.writev a d) → s.sub = 0 → s.step = 5 → s.tape = .ok b :: rest →
    b.getLsbD s.cfg.txBit.val = false →
    exec (.writev a d) s = .next { s with
      phase := .idle, pcnt := s.pcnt + 1, tape := rest
      trace := .rdOk s.cfg.devAddr s.cfg.pregStatus b :: s.trace
      rsp := { valid := true, status := 0, cause := 0, step := 0, sub := 0, xerr := 0, value := 0 } }

/-- R175, R171: the READ read at step 4 ends READV with OK and the byte read, zero-extended, which VBYTE holds too. -/
def Obligations.ReadvEndsOkWithTheByte : Prop :=
  ∀ (a : VAddr) (b : Byte) (rest : List Answer) (s : State), s.phase = .run →
    s.cmd = latchOf (.readv a) → s.sub = 0 → s.step = 4 → s.tape = .ok b :: rest →
    exec (.readv a) s = .next { s with
      phase := .idle, vbyte := b, tape := rest
      trace := .rdOk s.cfg.devAddr s.cfg.pregRead b :: s.trace
      rsp := { valid := true, status := 0, cause := 0, step := 0, sub := 0, xerr := 0, value := b.setWidth 32 } }

/-- R190, R191: each READ read of a READMB shifts its byte into ACC; the last one ends it with OK and ACC, an earlier one
begins the next virtual read. -/
def Obligations.ReadmbByteIsAssembled : Prop :=
  ∀ (a : VAddr) (n : BitVec 3) (b : Byte) (rest : List Answer) (s : State), s.phase = .run →
    s.cmd = latchOf (.readmb a n) → s.step = 4 → s.tape = .ok b :: rest →
    (s.sub.toNat + 1 = n.toNat → exec (.readmb a n) s = .next { s with
      phase := .idle, vbyte := b, tape := rest, acc := (s.acc <<< 8) ||| b.setWidth 32
      trace := .rdOk s.cfg.devAddr s.cfg.pregRead b :: s.trace
      rsp := { valid := true, status := 0, cause := 0, step := 0, sub := 0, xerr := 0,
               value := (s.acc <<< 8) ||| b.setWidth 32 } })
    ∧ (s.sub.toNat + 1 < n.toNat → exec (.readmb a n) s = .next { s with
      sub := s.sub + 1, step := 1, pcnt := 0, vbyte := b, tape := rest, acc := (s.acc <<< 8) ||| b.setWidth 32
      trace := .rdOk s.cfg.devAddr s.cfg.pregRead b :: s.trace })

/-- R215: the end of INIT's reset write begins the configuration write with PEND = DEFAULT_CFG; the end of the
configuration write loads CTRL_SHADOW from PEND, sets INIT_DONE and ends INIT with OK and value 0. That PEND = DEFAULT_CFG
is set in the step of the reset write's last read is the model's choice (log entry 10). PEND is UNSPECIFIED once INIT has
ended (R36): a free value here, by the model's choice (log entry 22). -/
def Obligations.InitEndsOk : Prop :=
  ∀ (b : Byte) (rest : List Answer) (s : State), s.phase = .run → s.cmd = latchOf .init → s.step = 5 →
    s.tape = .ok b :: rest → b.getLsbD s.cfg.txBit.val = false →
    (s.sub = 0 → exec .init s = .next { s with
      sub := 1, step := 1, pcnt := 0, tape := rest
      pend := ctrlByte s.cfg.ctrl 0 s.cfg.defaultInt s.cfg.defaultGain s.cfg.defaultMode
      trace := .rdOk s.cfg.devAddr s.cfg.pregStatus b :: s.trace })
    ∧ (s.sub = 1 → exec .init s = .next { s with
      phase := .idle, pcnt := s.pcnt + 1, tape := rest, ctrlShadow := s.pend, initDone := true
      pend := (Config.freeWord s.free).setWidth 8, free := s.free + 1
      trace := .rdOk s.cfg.devAddr s.cfg.pregStatus b :: s.trace
      rsp := { valid := true, status := 0, cause := 0, step := 0, sub := 0, xerr := 0, value := 0 } })

/-- R220: the STATUS read that shows TX_PENDING clear at step 5 ends SETLED with OK and value 0. -/
def Obligations.SetledEndsOk : Prop :=
  ∀ (e : BitVec 1) (drv sns : BitVec 2) (b : Byte) (rest : List Answer) (s : State), s.phase = .run →
    s.cmd = latchOf (.setled e drv sns) → s.sub = 0 → s.step = 5 → s.tape = .ok b :: rest →
    b.getLsbD s.cfg.txBit.val = false →
    exec (.setled e drv sns) s = .next { s with
      phase := .idle, pcnt := s.pcnt + 1, tape := rest
      trace := .rdOk s.cfg.devAddr s.cfg.pregStatus b :: s.trace
      rsp := { valid := true, status := 0, cause := 0, step := 0, sub := 0, xerr := 0, value := 0 } }

/-- R225: the STATUS read that shows TX_PENDING clear at step 5 loads CTRL_SHADOW from PEND and ends STARTMEAS with OK
and value 0. PEND is UNSPECIFIED once STARTMEAS has ended (R36): a free value here, by the model's choice (log entry 22). -/
def Obligations.StartmeasEndsOk : Prop :=
  ∀ (b : Byte) (rest : List Answer) (s : State), s.phase = .run → s.cmd = latchOf .startmeas → s.sub = 0 →
    s.step = 5 → s.tape = .ok b :: rest → b.getLsbD s.cfg.txBit.val = false →
    exec .startmeas s = .next { s with
      phase := .idle, pcnt := s.pcnt + 1, tape := rest, ctrlShadow := s.pend
      pend := (Config.freeWord s.free).setWidth 8, free := s.free + 1
      trace := .rdOk s.cfg.devAddr s.cfg.pregStatus b :: s.trace
      rsp := { valid := true, status := 0, cause := 0, step := 0, sub := 0, xerr := 0, value := 0 } }

/-! ### Whole commands -/

/-- R161, R165: presented with its word, with answers under which every poll sees its condition within the budget, WRITEV
runs to OK in one step more than it has transactions; its trace is R161's, and nothing else changes. -/
def Obligations.WritevRunsToOk : Prop :=
  ∀ (a : VAddr) (d : Byte) (h : WriteAnswers) (rest : List Answer) (s : State),
    s.phase = .idle → s.host.pos = .off → s.inputs = [.present (encode (.writev a d))] →
    a ≠ s.cfg.vregCtrl → a ≠ s.cfg.vregLed → h.good s.cfg = true → s.tape = h.answers ++ rest →
    runSteps (h.answers.length + 1) s = .next { s with
      cmd := latchOf (.writev a d), sub := 0, step := 5
      pcnt := BitVec.ofNat 16 h.poll5.answers.length, inputs := [], tape := rest, free := s.free + 1
      trace := (h.events s.cfg a d).reverse ++ s.trace
      rsp := { valid := true, status := 0, cause := 0, step := 0, sub := 0, xerr := 0, value := 0 } }

/-- R171, R175: the same for READV: the response value is the byte READ gave. -/
def Obligations.ReadvRunsToOk : Prop :=
  ∀ (a : VAddr) (h : ReadAnswers) (rest : List Answer) (s : State),
    s.phase = .idle → s.host.pos = .off → s.inputs = [.present (encode (.readv a))] →
    h.good s.cfg = true → s.tape = h.answers ++ rest →
    runSteps (h.answers.length + 1) s = .next { s with
      cmd := latchOf (.readv a), sub := 0, step := 4, vbyte := h.data
      pcnt := BitVec.ofNat 16 h.poll3.answers.length, inputs := [], tape := rest, free := s.free + 1
      trace := (h.events s.cfg a).reverse ++ s.trace
      rsp := { valid := true, status := 0, cause := 0, step := 0, sub := 0, xerr := 0,
               value := h.data.setWidth 32 } }

/-- R191: the bytes b0 .. b(n-1) a READMB reads at consecutive addresses make the value
`sum over i of b_i * 2^(8*(n-1-i))`; bits above 8n are 0; and shifting ACC discards no set bit. -/
def Obligations.ReadmbAssemblesMostSignificantFirst : Prop :=
  (∀ (a : VAddr) (n : BitVec 3) (hs : List ReadAnswers) (rest : List Answer) (s : State),
    s.phase = .idle → s.host.pos = .off → s.inputs = [.present (encode (.readmb a n))] →
    1 ≤ n.toNat → n.toNat ≤ 4 → a.toNat + n.toNat - 1 ≤ 0x7F →
    hs.length = n.toNat → hs.all (fun h => h.good s.cfg) = true →
    s.tape = hs.flatMap ReadAnswers.answers ++ rest →
    ∃ t : State, runSteps ((hs.flatMap ReadAnswers.answers).length + 1) s = .next t ∧ t.phase = .idle
      ∧ t.rsp.valid = true ∧ t.rsp.status = 0
      ∧ t.rsp.value.toNat = bigEndian (hs.map ReadAnswers.data)
      ∧ t.rsp.value.toNat < 2 ^ (8 * n.toNat)
      ∧ t.trace = (mbEvents s.cfg a hs).reverse ++ s.trace)
  ∧ ∀ (acc : Word) (b : Byte) (k : Nat), k < 4 → acc.toNat < 2 ^ (8 * k) →
    (accPush acc b).toNat = acc.toNat * 256 + b.toNat ∧ (accPush acc b).toNat < 2 ^ (8 * (k + 1))

/-- R215: INIT's two VWRITEs to VREG_CTRL, the reset word and then DEFAULT_CFG, end it with OK, INIT_DONE = 1 and
CTRL_SHADOW = DEFAULT_CFG; nothing is written to VREG_LED. PEND is UNSPECIFIED once INIT has ended (R36): a free value
here, by the model's choice (log entry 22). -/
def Obligations.InitRunsToOk : Prop :=
  ∀ (h k : WriteAnswers) (rest : List Answer) (s : State),
    s.phase = .idle → s.host.pos = .off → s.inputs = [.present (encode .init)] →
    h.good s.cfg = true → k.good s.cfg = true → s.tape = h.answers ++ (k.answers ++ rest) →
    runSteps (h.answers.length + k.answers.length + 1) s = .next { s with
      cmd := latchOf .init, sub := 1, step := 5
      pcnt := BitVec.ofNat 16 k.poll5.answers.length, inputs := [], tape := rest, free := s.free + 2
      pend := (Config.freeWord (s.free + 1)).setWidth 8, ctrlShadow := defaultCfg s.cfg, initDone := true
      trace := (h.events s.cfg s.cfg.vregCtrl (ctrlResetWord s.cfg)
        ++ k.events s.cfg s.cfg.vregCtrl (defaultCfg s.cfg)).reverse ++ s.trace
      rsp := { valid := true, status := 0, cause := 0, step := 0, sub := 0, xerr := 0, value := 0 } }

/-- R220: SETLED writes the LED byte to VREG_LED with one VWRITE and ends with OK; CTRL_SHADOW and INIT_DONE are
untouched. -/
def Obligations.SetledRunsToOk : Prop :=
  ∀ (e : BitVec 1) (drv sns : BitVec 2) (h : WriteAnswers) (rest : List Answer) (s : State),
    s.phase = .idle → s.host.pos = .off → s.inputs = [.present (encode (.setled e drv sns))] →
    h.good s.cfg = true → s.tape = h.answers ++ rest →
    runSteps (h.answers.length + 1) s = .next { s with
      cmd := latchOf (.setled e drv sns), sub := 0, step := 5
      pcnt := BitVec.ofNat 16 h.poll5.answers.length, inputs := [], tape := rest, free := s.free + 1
      trace := (h.events s.cfg s.cfg.vregLed (ledByte s.cfg.led e drv sns)).reverse ++ s.trace
      rsp := { valid := true, status := 0, cause := 0, step := 0, sub := 0, xerr := 0, value := 0 } }

/-- R225: STARTMEAS in READY writes the shadow's INT and GAIN with TRIGGER_MODE to VREG_CTRL with one VWRITE and ends
with OK, that byte in CTRL_SHADOW; it reads nothing but STATUS. PEND is UNSPECIFIED once STARTMEAS has ended (R36): a
free value here, by the model's choice (log entry 22). -/
def Obligations.StartmeasRunsToOk : Prop :=
  ∀ (h : WriteAnswers) (rest : List Answer) (s : State),
    s.phase = .idle → s.host.pos = .off → s.inputs = [.present (encode .startmeas)] → s.initDone = true →
    h.good s.cfg = true → s.tape = h.answers ++ rest →
    runSteps (h.answers.length + 1) s = .next { s with
      cmd := latchOf .startmeas, sub := 0, step := 5
      pcnt := BitVec.ofNat 16 h.poll5.answers.length, inputs := [], tape := rest, free := s.free + 2
      pend := (Config.freeWord (s.free + 1)).setWidth 8, ctrlShadow := triggerByte s.cfg s.ctrlShadow
      trace := (h.events s.cfg s.cfg.vregCtrl (triggerByte s.cfg s.ctrlShadow)).reverse ++ s.trace
      rsp := { valid := true, status := 0, cause := 0, step := 0, sub := 0, xerr := 0, value := 0 } }

/-- R333, R332: with enough answers on the tape, none of them missing, every command ends within its bound, after at least
the step that takes it: it issues at
most R333's maximum, at least its minimum on OK, none when ILLEGAL, at least one when STALLED, and exactly POLL_BUDGET
when it is a TIMEOUT at step 1 of its first access. -/
def Obligations.EveryCommandEndsWithinItsBound : Prop :=
  ∀ (i : Instr) (s : State), s.phase = .idle → s.host.pos = .off →
    s.inputs = [.present (encode i)] → maxTransactions s.cfg.pollBudget i ≤ s.tape.length →
    .silent ∉ s.tape →
    ∃ (k : Nat) (t : State) (issued : List XEvent), 1 ≤ k ∧ k ≤ maxTransactions s.cfg.pollBudget i + 1
      ∧ runSteps k s = .next t ∧ t.phase = .idle ∧ t.rsp.valid = true ∧ t.trace = issued ++ s.trace
      ∧ issued.length ≤ maxTransactions s.cfg.pollBudget i
      ∧ (t.rsp.status = 0 → minTransactionsOk i ≤ issued.length)
      ∧ (t.rsp.status = 3 → issued = [])
      ∧ (t.rsp.status = 1 → 1 ≤ issued.length)
      ∧ (t.rsp.status = 1 → t.rsp.cause = 0 → t.rsp.step = 1 → t.rsp.sub = 0 →
          issued.length = s.cfg.pollBudget)

/-! ### Polling and failures -/

/-- R145, R146, R281, R283: a POLL whose every STATUS read misses its condition ends the command after exactly
POLL_BUDGET reads: STALLED, cause TIMEOUT, with the step and the access it failed at, and nothing else changed. -/
def Obligations.PollTimesOutAfterExactlyItsBudget : Prop :=
  ∀ (i : Instr) (acc : Access) (c : PollCond) (missed rest : List Answer) (s : State), s.alone →
    s.phase = .run → s.cmd = latchOf i → s.sub.toNat < accessCount i → s.access = some acc →
    acc.polls s.step = some c → s.pcnt = 0 → missed.all (Answer.misses s.cfg c) = true →
    missed.length = s.cfg.pollBudget → s.tape = missed ++ rest →
    runSteps s.cfg.pollBudget s = .next { s with
      phase := .idle, pcnt := BitVec.ofNat 16 s.cfg.pollBudget, tape := rest, free := s.free + 1
      trace := (missed.flatMap (statusEvent s.cfg)).reverse ++ s.trace
      rsp := { valid := true, status := 1, cause := 0, step := s.step, sub := s.sub, xerr := 0,
               value := Config.freeWord s.free } }

/-- R282, R283, R142: a write to WRITE or a read of READ that fails ends the command at once: STALLED, cause TRANSPORT,
with the step, the access and the code, one of XERR_W bits (R17), and nothing else changed. -/
def Obligations.FailedTransferEndsTheCommand : Prop :=
  ∀ (i : Instr) (q : XReq) (c : Nat) (rest : List Answer) (s : State), s.phase = .run →
    s.cmd = latchOf i → s.sub.toNat < accessCount i → s.request = some q → q ≠ .rd s.cfg.pregStatus →
    s.tape = .fail c :: rest → c < 2 ^ s.cfg.xerrW →
    exec i s = .next { s with
      phase := .idle, tape := rest, free := s.free + 1, trace := q.failEvent s.cfg c :: s.trace
      rsp := { valid := true, status := 1, cause := 1, step := s.step, sub := s.sub, xerr := c,
               value := Config.freeWord s.free } }

/-- R148: a STATUS read that fails, with a code of XERR_W bits (R17), ends the command with TRANSPORT and its code under ABORT; under RETRY it is one
attempt, and polling continues within the budget, which ends with TIMEOUT. -/
def Obligations.FailedStatusReadRetriesOrAborts : Prop :=
  ∀ (i : Instr) (acc : Access) (k : PollCond) (c : Nat) (rest : List Answer) (s : State), s.phase = .run →
    s.cmd = latchOf i → s.sub.toNat < accessCount i → s.access = some acc → acc.polls s.step = some k →
    s.tape = .fail c :: rest → c < 2 ^ s.cfg.xerrW →
    (s.cfg.pollXfail = .abort → exec i s = .next { s with
      phase := .idle, pcnt := s.pcnt + 1, tape := rest, free := s.free + 1
      trace := .rdFail s.cfg.devAddr s.cfg.pregStatus c :: s.trace
      rsp := { valid := true, status := 1, cause := 1, step := s.step, sub := s.sub, xerr := c,
               value := Config.freeWord s.free } })
    ∧ (s.cfg.pollXfail = .retry → (s.pcnt + 1).toNat < s.cfg.pollBudget → exec i s = .next { s with
      pcnt := s.pcnt + 1, tape := rest
      trace := .rdFail s.cfg.devAddr s.cfg.pregStatus c :: s.trace })
    ∧ (s.cfg.pollXfail = .retry → s.cfg.pollBudget ≤ (s.pcnt + 1).toNat → exec i s = .next { s with
      phase := .idle, pcnt := s.pcnt + 1, tape := rest, free := s.free + 1
      trace := .rdFail s.cfg.devAddr s.cfg.pregStatus c :: s.trace
      rsp := { valid := true, status := 1, cause := 0, step := s.step, sub := s.sub, xerr := 0,
               value := Config.freeWord s.free } })

/-- R76, R331, 93 U17: while the transport does not answer, the engine stays where it is and issues nothing else. How a
missing answer is shown, one `silent` a step, is the model's choice (log entry 3). -/
def Obligations.SilentTransportBlocksTheEngine : Prop :=
  ∀ (i : Instr) (q : XReq) (rest : List Answer) (s : State), s.phase = .run → s.cmd = latchOf i →
    s.sub.toNat < accessCount i → s.request = some q → s.tape = .silent :: rest →
    exec i s = .next { s with tape := rest }

/-- R5, R31: an engine step that is answered issues exactly one transaction, the outstanding request of the handshake
step it stands at, with the answer it got (a failure code being one of XERR_W bits, R17). -/
def Obligations.EngineStepIssuesItsRequest : Prop :=
  ∀ (i : Instr) (q : XReq) (s t : State), s.phase = .run → s.cmd = latchOf i → s.sub.toNat < accessCount i →
    s.request = some q → exec i s = .next t →
    (∀ (b : Byte) (rest : List Answer), s.tape = .ok b :: rest →
      t.tape = rest ∧ t.trace = q.okEvent s.cfg b :: s.trace)
    ∧ (∀ (c : Nat) (rest : List Answer), s.tape = .fail c :: rest → c < 2 ^ s.cfg.xerrW →
      t.tape = rest ∧ t.trace = q.failEvent s.cfg c :: s.trace)

/-- R5: one step of the machine adds at most one event to the trace. -/
def Obligations.StepIssuesAtMostOneTransaction : Prop :=
  ∀ s t : State, step s = .next t → t.trace = s.trace ∨ ∃ e, t.trace = e :: s.trace

/-! ### Frames -/

/-- R176: WRITEV and READV change no VRPE state other than the latch, the position counters, VBYTE (READV only) and the
response registers (and `phase`, R31). -/
def Obligations.WritevAndReadvFrame : Prop :=
  ∀ (a : VAddr) (d : Byte) (s t : State),
    (exec (.writev a d) s = .next t → t.acc = s.acc ∧ t.vbyte = s.vbyte ∧ t.pend = s.pend
      ∧ t.ctrlShadow = s.ctrlShadow ∧ t.initDone = s.initDone ∧ t.overrun = s.overrun
      ∧ t.cfg = s.cfg ∧ t.host = s.host ∧ t.inputs = s.inputs)
    ∧ (exec (.readv a) s = .next t → t.acc = s.acc ∧ t.pend = s.pend
      ∧ t.ctrlShadow = s.ctrlShadow ∧ t.initDone = s.initDone ∧ t.overrun = s.overrun
      ∧ t.cfg = s.cfg ∧ t.host = s.host ∧ t.inputs = s.inputs)

/-- R190, R220 ("SETLED changes neither CTRL_SHADOW nor INIT_DONE"), and the 'State written' lines of both: what READMB
and SETLED leave unchanged. -/
def Obligations.ReadmbAndSetledFrame : Prop :=
  ∀ (a : VAddr) (n : BitVec 3) (e : BitVec 1) (drv sns : BitVec 2) (s t : State),
    (exec (.readmb a n) s = .next t → t.pend = s.pend ∧ t.ctrlShadow = s.ctrlShadow ∧ t.initDone = s.initDone
      ∧ t.overrun = s.overrun ∧ t.cfg = s.cfg ∧ t.host = s.host ∧ t.inputs = s.inputs)
    ∧ (exec (.setled e drv sns) s = .next t → t.acc = s.acc ∧ t.vbyte = s.vbyte ∧ t.pend = s.pend
      ∧ t.ctrlShadow = s.ctrlShadow ∧ t.initDone = s.initDone ∧ t.overrun = s.overrun
      ∧ t.cfg = s.cfg ∧ t.host = s.host ∧ t.inputs = s.inputs)

/-- R215, R225, and the 'State written' lines of both: what INIT and STARTMEAS leave unchanged; STARTMEAS changes
CTRL_SHADOW only when it ends OK. -/
def Obligations.InitAndStartmeasFrame : Prop :=
  ∀ s t : State,
    (exec .init s = .next t → t.acc = s.acc ∧ t.vbyte = s.vbyte ∧ t.overrun = s.overrun
      ∧ t.cfg = s.cfg ∧ t.host = s.host ∧ t.inputs = s.inputs)
    ∧ (exec .startmeas s = .next t → t.acc = s.acc ∧ t.vbyte = s.vbyte ∧ t.overrun = s.overrun
      ∧ t.initDone = s.initDone ∧ t.cfg = s.cfg ∧ t.host = s.host ∧ t.inputs = s.inputs
      ∧ (t.ctrlShadow = s.ctrlShadow
        ∨ (t.ctrlShadow = s.pend ∧ t.phase = .idle ∧ t.rsp.valid = true ∧ t.rsp.status = 0)))

/-- R210: the controller's transitions, over every command: what a command does to INIT_DONE and CTRL_SHADOW. -/
def Obligations.ControllerTransitions : Prop :=
  ∀ (i : Instr) (s t : State), Inv s → exec i s = .next t →
    (i = .init → s.phase = .idle → t.initDone = false ∧ t.ctrlShadow = 0)
    ∧ (i = .init → s.phase = .run →
        (t.phase = .idle ∧ t.rsp.status = 0 ∧ t.initDone = true ∧ t.ctrlShadow = defaultCfg s.cfg)
        ∨ (t.phase = .idle ∧ t.rsp.status = 1 ∧ t.initDone = false ∧ t.ctrlShadow = 0)
        ∨ (t.phase = .run ∧ t.initDone = false ∧ t.ctrlShadow = 0))
    ∧ (i = .startmeas → s.phase = .run → t.initDone = true
        ∧ ((t.phase = .idle ∧ t.rsp.status = 0 ∧ t.ctrlShadow = triggerByte s.cfg s.ctrlShadow)
          ∨ (t.phase = .idle ∧ t.rsp.status = 1 ∧ t.ctrlShadow = s.ctrlShadow)
          ∨ (t.phase = .run ∧ t.ctrlShadow = s.ctrlShadow)))
    ∧ (i = .startmeas → s.phase = .idle → t.initDone = s.initDone ∧ t.ctrlShadow = s.ctrlShadow)
    ∧ (i ≠ .init → i ≠ .startmeas → t.initDone = s.initDone ∧ t.ctrlShadow = s.ctrlShadow)

/-- R226: STARTMEAS never changes the gain or the interrupt enable: the byte it writes has the shadow's GAIN and INT, so
has the shadow after it, and in READY these are the defaults INIT wrote. -/
def Obligations.StartmeasPreservesGainAndInterruptEnable : Prop :=
  (∀ (s : State) (r v : Byte), Inv s → s.phase = .run → s.cmd = latchOf .startmeas → s.step = 4 →
    s.request = some (.wr r v) →
    ctrlGain s.cfg.ctrl v = ctrlGain s.cfg.ctrl s.ctrlShadow ∧ ctrlInt s.cfg.ctrl v = ctrlInt s.cfg.ctrl s.ctrlShadow)
  ∧ (∀ s t : State, Inv s → exec .startmeas s = .next t →
    ctrlGain t.cfg.ctrl t.ctrlShadow = ctrlGain s.cfg.ctrl s.ctrlShadow
    ∧ ctrlInt t.cfg.ctrl t.ctrlShadow = ctrlInt s.cfg.ctrl s.ctrlShadow)
  ∧ (∀ s : State, Inv s → s.initDone = true →
    ctrlGain s.cfg.ctrl s.ctrlShadow = s.cfg.defaultGain ∧ ctrlInt s.cfg.ctrl s.ctrlShadow = s.cfg.defaultInt)

/-! ### The bytes the engine composes -/

/-- R211: the fields of `ctrl_byte`, at every well-formed layout and at the reference layout; every byte the engine
writes to VREG_CTRL is one. -/
def Obligations.ControlByteHoldsItsFields : Prop :=
  (∀ (p : Params) (rst int : BitVec 1) (gain mode : BitVec 2), p.wf = true →
    ctrlRst p.ctrl (ctrlByte p.ctrl rst int gain mode) = rst
    ∧ ctrlInt p.ctrl (ctrlByte p.ctrl rst int gain mode) = int
    ∧ ctrlGain p.ctrl (ctrlByte p.ctrl rst int gain mode) = gain
    ∧ ctrlMode p.ctrl (ctrlByte p.ctrl rst int gain mode) = mode
    ∧ (ctrlByte p.ctrl rst int gain mode).getLsbD p.ctrl.drdy.val = false
    ∧ ∀ k : Nat, k ∉ p.ctrl.bits → (ctrlByte p.ctrl rst int gain mode).getLsbD k = false)
  ∧ (∀ (rst int : BitVec 1) (gain mode : BitVec 2), ctrlByte Params.reference.ctrl rst int gain mode
      = (rst.setWidth 8 <<< 7) ||| (int.setWidth 8 <<< 6) ||| (gain.setWidth 8 <<< 4) ||| (mode.setWidth 8 <<< 2))
  ∧ ∀ (s : State) (d : Byte), Inv s → s.phase = .run → s.access = some (.write s.cfg.vregCtrl d) →
      ∃ rst int gain mode, d = ctrlByte s.cfg.ctrl rst int gain mode

/-- R214: the LED byte: 0x00 when off, else both levels and both enables with reserved bits 0, which is never 0x00. -/
def Obligations.LedByteHoldsItsFields : Prop :=
  (∀ (p : Params) (drv sns : BitVec 2), p.wf = true →
    ledByte p.led 0 drv sns = 0
    ∧ (ledByte p.led 1 drv sns >>> p.led.drv.val).setWidth 2 = drv
    ∧ (ledByte p.led 1 drv sns).getLsbD p.led.drvEn.val = true
    ∧ (ledByte p.led 1 drv sns >>> p.led.sns.val).setWidth 2 = sns
    ∧ (ledByte p.led 1 drv sns).getLsbD p.led.snsEn.val = true
    ∧ (∀ k : Nat, k ∉ p.led.bits → (ledByte p.led 1 drv sns).getLsbD k = false)
    ∧ ledByte p.led 1 drv sns ≠ 0)
  ∧ ∀ drv sns : BitVec 2, ledByte Params.reference.led 1 drv sns
      = (drv.setWidth 8 <<< 4) ||| 0x08 ||| (sns.setWidth 8 <<< 1) ||| 0x01

/-! ### Invariants -/

/-- R56, R320: the invariant holds after reset. -/
def Obligations.ResetMeetsTheInvariant : Prop := Inv State.reset ∧ HandshakeOrder State.reset

/-- R31 to R38, R149, R191, R210, R226, R280, R286: every step keeps the invariant. -/
def Obligations.EveryStepKeepsTheInvariant : Prop := ∀ s t : State, Inv s → step s = .next t → Inv t

/-- R83: every step keeps the trace in the handshake's order. -/
def Obligations.EveryStepKeepsTheHandshakeOrder : Prop :=
  ∀ s t : State, Inv s → HandshakeOrder s → step s = .next t → HandshakeOrder t

/-- R162: from an IDLE state, whatever runs, the address byte of a virtual write is outstanding only right after a STATUS
read that showed TX_PENDING clear, and its data byte only right after a STATUS read that showed TX_PENDING set, with
nothing but STATUS reads between that one and the address byte. -/
def Obligations.VirtualWriteBytesAreOrdered : Prop :=
  ∀ (s t : State) (k : Nat) (a : VAddr) (d r v : Byte), Inv s → s.phase = .idle → runSteps k s = .next t →
    t.phase = .run → t.access = some (.write a d) → t.request = some (.wr r v) →
    (t.step = 2 → v = writeAddrByte a ∧ ∃ b older,
      t.trace = .rdOk t.cfg.devAddr t.cfg.pregStatus b :: older ∧ b.getLsbD t.cfg.txBit.val = false)
    ∧ (t.step = 4 → v = d ∧ ∃ b reads older,
      t.trace = .rdOk t.cfg.devAddr t.cfg.pregStatus b :: reads
          ++ .wrOk t.cfg.devAddr t.cfg.pregWrite (writeAddrByte a) :: older
      ∧ b.getLsbD t.cfg.txBit.val = true ∧ ∀ e ∈ reads, e.isStatusRead t.cfg)
    ∧ (t.step = 2 ∨ t.step = 4)

/-- R71: STATUS is only read, WRITE is only written, READ is only read, whatever a step does. -/
def Obligations.PhysicalRegistersAreUsedOneWay : Prop :=
  ∀ s t : State, (∀ e ∈ s.trace, e.directed s.cfg) → step s = .next t → ∀ e ∈ t.trace, e.directed t.cfg

/-- R332 ("no command hangs"), R280: from a state that meets the invariant a step goes on, unless the host calls MREAD
while its MREAD runs. -/
def Obligations.InvariantStatesDoNotFault : Prop :=
  ∀ s : State, Inv s → (s.nextAct = .mread → s.host.pos = .off) → ∃ t, step s = .next t

/-- R11 ("arguments"), R34, R37, R88: the parameters never change; ACC changes only under READMB or a block reset;
CTRL_SHADOW only under INIT, STARTMEAS or a block reset. -/
def Obligations.OnlyTheirOwnersChangeAccAndShadow : Prop :=
  ∀ s t : State, step s = .next t →
    t.cfg = s.cfg
    ∧ (t.acc ≠ s.acc → s.nextAct = .reset ∨ t.cmd.op = 3)
    ∧ (t.ctrlShadow ≠ s.ctrlShadow → s.nextAct = .reset ∨ t.cmd.op = 4 ∨ t.cmd.op = 6)

/-! ### The host procedure MREAD -/

/-- R254, R256: a control byte without DRDY ends MREAD with NOT_READY, and any response other than OK ends it with
STALLED: in both cases no further command and the session unchanged. -/
def Obligations.MreadEndsEarlyWithoutASnapshot : Prop :=
  (∀ s : State, s.inputs = [] → s.host.pos = .await .ctrl → s.phase = .idle →
    s.rsp.valid = true → s.rsp.status = 0 → s.rsp.value.getLsbD s.cfg.ctrl.drdy.val = false →
    step s = .next { s with host := { s.host with pos := .off, result := some .notReady } })
  ∧ ∀ (k : MreadCmd) (s : State), s.inputs = [] → s.host.pos = .await k → s.phase = .idle →
    s.rsp.valid = true → s.rsp.status ≠ 0 →
    step s = .next { s with host := { s.host with pos := .off, result := some .stalled } }

/-- R250, R253, R255: a call of MREAD presents its first command, READV VREG_CTRL, and waits for its response; while BUSY
MREAD presents nothing and the running command goes on, and in IDLE it takes no response before RSP_VALID = 1; it presents
its six commands in the fixed order, each after the OK of the one before it. That taking a response is a step of its own,
and that a call drops the last result, is the model's choice (log entry 8). -/
def Obligations.MreadPresentsSixCommandsInOrder : Prop :=
  (∀ (s : State) (rest : List HostInput), s.inputs = .mread :: rest → s.host.pos = .off →
    (s.phase = .idle → step s = exec (.readv s.cfg.vregCtrl)
      { s with inputs := rest, host := { s.host with pos := .await .ctrl, result := none } })
    ∧ ∀ i : Instr, s.phase = .run → s.cmd = latchOf i →
      step s = exec i { s with inputs := rest, host := { s.host with pos := .issue .ctrl, result := none } })
  ∧ (∀ (k : MreadCmd) (i : Instr) (s : State), s.inputs = [] → (s.host.pos = .issue k ∨ s.host.pos = .await k) →
    s.phase = .run → s.cmd = latchOf i → step s = exec i s)
  ∧ (∀ (k : MreadCmd) (s : State), s.inputs = [] → s.host.pos = .await k → s.phase = .idle → s.rsp.valid = false →
    step s = .next s)
  ∧ (∀ (k : MreadCmd) (s : State), s.inputs = [] → s.host.pos = .issue k → s.phase = .idle →
    step s = exec (mreadCommand s.cfg k) { s with host := { s.host with pos := .await k } })
  ∧ (∀ p : Params, mreadCommand p .ctrl = .readv p.vregCtrl ∧ mreadCommand p .lux = .readmb p.vregLux 2
    ∧ mreadCommand p .cct = .readmb p.vregCct 2 ∧ mreadCommand p .ch0 = .readmb p.vregCh0 4
    ∧ mreadCommand p .ch1 = .readmb p.vregCh1 4 ∧ mreadCommand p .ch2 = .readmb p.vregCh2 4)
  ∧ ∀ (k n : MreadCmd) (s : State), s.inputs = [] → s.host.pos = .await k → s.phase = .idle →
      s.rsp.valid = true → s.rsp.status = 0 → (k = .ctrl → s.rsp.value.getLsbD s.cfg.ctrl.drdy.val = true) →
      (k, n) ∈ [(.ctrl, .lux), (.lux, .cct), (.cct, .ch0), (.ch0, .ch1), (.ch1, .ch2)] →
      ∃ t : State, step s = .next t ∧ t.host.pos = .issue n
        ∧ t.host.lastLux = s.host.lastLux ∧ t.host.lastCct = s.host.lastCct
        ∧ (k = .lux → t.host.lux = s.rsp.value) ∧ (k = .cct → t.host.cct = s.rsp.value)
        ∧ (k = .ch0 → t.host.x = s.rsp.value) ∧ (k = .ch1 → t.host.y = s.rsp.value)

/-- R253, R255, R258: the OK of the sixth command completes MREAD: LAST_LUX and LAST_CCT take the low 16 bits of lux and
cct, and the snapshot holds lux, cct and what RGB_MAP makes of the three integrals. -/
def Obligations.MreadCompletesWithASnapshot : Prop :=
  ∀ s : State, s.inputs = [] → s.host.pos = .await .ch2 → s.phase = .idle →
    s.rsp.valid = true → s.rsp.status = 0 →
    step s = .next { s with host := { s.host with
      pos := .off, lastLux := s.host.lux.setWidth 16, lastCct := s.host.cct.setWidth 16
      result := some (.ok { lux := s.host.lux, cct := s.host.cct
                            red := (Config.rgbMap s.host.x s.host.y s.rsp.value).1
                            green := (Config.rgbMap s.host.x s.host.y s.rsp.value).2.1
                            blue := (Config.rgbMap s.host.x s.host.y s.rsp.value).2.2 }) } }

/-- R251: LAST_LUX and LAST_CCT are updated only by an MREAD that returns OK. -/
def Obligations.SessionChangesOnlyWithAnOkMread : Prop :=
  ∀ s t : State, step s = .next t → (t.host.lastLux ≠ s.host.lastLux ∨ t.host.lastCct ≠ s.host.lastCct) →
    s.host.pos = .await .ch2 ∧ s.rsp.valid = true ∧ s.rsp.status = 0
    ∧ ∃ snap, t.host.result = some (.ok snap)

/-! ### The reference chip -/

/-- R96 to R99, 95 (macro VW): against the reference chip at rest WRITEV runs to OK in five transactions; the chip then
holds the byte at the address, every other virtual register as before, and is at rest again. -/
def Obligations.WritevWritesTheReferenceChip : Prop :=
  ∀ (a : VAddr) (d : Byte) (rc : RefChip) (s : State), s.cfg.wf = true → s.phase = .idle → s.host.pos = .off →
    s.inputs = [.present (encode (.writev a d))] → a ≠ s.cfg.vregCtrl → a ≠ s.cfg.vregLed → rc.atRest →
    Memory.wf rc.vreg = true →
    ∃ (t : State) (after : RefChip), runWithChip 6 rc s = .next (t, after)
      ∧ t.phase = .idle ∧ t.rsp.status = 0 ∧ t.rsp.valid = true ∧ t.rsp.value = 0
      ∧ t.trace = [.rdOk s.cfg.devAddr s.cfg.pregStatus 0, .wrOk s.cfg.devAddr s.cfg.pregWrite d,
          .rdOk s.cfg.devAddr s.cfg.pregStatus (1#8 <<< s.cfg.txBit.val),
          .wrOk s.cfg.devAddr s.cfg.pregWrite (writeAddrByte a),
          .rdOk s.cfg.devAddr s.cfg.pregStatus 0] ++ s.trace
      ∧ after.atRest ∧ Memory.wf after.vreg = true ∧ ∀ x : Nat, after.vreg.read x = if x = a.toNat then d else rc.vreg.read x

/-- R97, R100, R101, 95 (macro VR): against the reference chip at rest READV returns the byte the chip holds, in four
transactions, and leaves the chip's registers as they were. -/
def Obligations.ReadvReadsTheReferenceChip : Prop :=
  ∀ (a : VAddr) (rc : RefChip) (s : State), s.cfg.wf = true → s.phase = .idle → s.host.pos = .off →
    s.inputs = [.present (encode (.readv a))] → rc.atRest →
    ∃ (t : State) (after : RefChip), runWithChip 5 rc s = .next (t, after)
      ∧ t.phase = .idle ∧ t.rsp.status = 0 ∧ t.rsp.valid = true
      ∧ t.rsp.value = (rc.vreg.read a.toNat).setWidth 32
      ∧ t.trace = [.rdOk s.cfg.devAddr s.cfg.pregRead (rc.vreg.read a.toNat),
          .rdOk s.cfg.devAddr s.cfg.pregStatus (1#8 <<< s.cfg.rxBit.val),
          .wrOk s.cfg.devAddr s.cfg.pregWrite (readAddrByte a),
          .rdOk s.cfg.devAddr s.cfg.pregStatus 0] ++ s.trace
      ∧ after.atRest ∧ after.vreg = rc.vreg

/-! ### Assembler text -/

/-- R121, R122: the assembler rejects a value that does not fit its field and a READMB count outside 1..4, what fits
becomes its command with its values, and the pseudo-instructions expand as the table says. -/
def Obligations.AssembledCommandsFitTheirFields : Prop :=
  (∀ (op : AsmOp) (vs : List Nat) (a : VAddr) (n : BitVec 3), assemble op vs = some (.readmb a n) →
    1 ≤ n.toNat ∧ n.toNat ≤ 4)
  ∧ (∀ addr data : Nat, addr ≤ 0x7F → data ≤ 0xFF →
    ∃ (a : VAddr) (d : Byte), assemble .writev [addr, data] = some (.writev a d) ∧ a.toNat = addr ∧ d.toNat = data)
  ∧ (∀ addr : Nat, addr ≤ 0x7F → ∃ a : VAddr, assemble .readv [addr] = some (.readv a) ∧ a.toNat = addr)
  ∧ (∀ addr n : Nat, addr ≤ 0x7F → 1 ≤ n → n ≤ 4 →
    ∃ (a : VAddr) (m : BitVec 3), assemble .readmb [addr, n] = some (.readmb a m) ∧ a.toNat = addr ∧ m.toNat = n)
  ∧ (∀ e drv sns : Nat, e ≤ 1 → drv ≤ 3 → sns ≤ 3 → ∃ (x : BitVec 1) (y z : BitVec 2),
    assemble .setled [e, drv, sns] = some (.setled x y z) ∧ x.toNat = e ∧ y.toNat = drv ∧ z.toNat = sns)
  ∧ (assemble .init [] = some .init ∧ assemble .startmeas [] = some .startmeas)
  ∧ (∀ addr : Nat, 0x7F < addr → ∀ data n : Nat, assemble .writev [addr, data] = none
    ∧ assemble .readv [addr] = none ∧ assemble .readmb [addr, n] = none)
  ∧ (∀ addr data : Nat, 0xFF < data → assemble .writev [addr, data] = none)
  ∧ (∀ addr n : Nat, n = 0 ∨ 4 < n → assemble .readmb [addr, n] = none)
  ∧ (∀ e drv sns : Nat, 1 < e ∨ 3 < drv ∨ 3 < sns → assemble .setled [e, drv, sns] = none)
  ∧ (∀ drv sns : Nat, 3 < drv ∨ 3 < sns → assemble .ledon [drv, sns] = none)
  ∧ (∀ addr : Nat, assemble .read16 [addr] = assemble .readmb [addr, 2]
    ∧ assemble .read32 [addr] = assemble .readmb [addr, 4])
  ∧ (∀ drv sns : Nat, assemble .ledon [drv, sns] = assemble .setled [1, drv, sns])
  ∧ assemble .ledoff [] = assemble .setled [0, 0, 0]
end

