-- ==== Sys2Proof/Laws/State.lean ====
section
/-! SUPPORT. One lemma per field per update of State, each true by definition, so that no proof unfolds a record
update. -/

namespace Sys2Proof.Machine

variable (s : State)

/-! ### finish -/

@[simp] theorem finish_cfg (v : Word) : (s.finish v).cfg = s.cfg := rfl
@[simp] theorem finish_phase (v : Word) : (s.finish v).phase = .idle := rfl
@[simp] theorem finish_cmd (v : Word) : (s.finish v).cmd = s.cmd := rfl
@[simp] theorem finish_sub (v : Word) : (s.finish v).sub = s.sub := rfl
@[simp] theorem finish_step (v : Word) : (s.finish v).step = s.step := rfl
@[simp] theorem finish_pcnt (v : Word) : (s.finish v).pcnt = s.pcnt := rfl
@[simp] theorem finish_acc (v : Word) : (s.finish v).acc = s.acc := rfl
@[simp] theorem finish_vbyte (v : Word) : (s.finish v).vbyte = s.vbyte := rfl
@[simp] theorem finish_pend (v : Word) : (s.finish v).pend = s.pend := rfl
@[simp] theorem finish_ctrlShadow (v : Word) : (s.finish v).ctrlShadow = s.ctrlShadow := rfl
@[simp] theorem finish_initDone (v : Word) : (s.finish v).initDone = s.initDone := rfl
@[simp] theorem finish_overrun (v : Word) : (s.finish v).overrun = s.overrun := rfl
@[simp] theorem finish_rsp (v : Word) :
    (s.finish v).rsp = { valid := true, status := statusOk, cause := 0, step := 0, sub := 0, xerr := 0, value := v } := rfl
@[simp] theorem finish_host (v : Word) : (s.finish v).host = s.host := rfl
@[simp] theorem finish_inputs (v : Word) : (s.finish v).inputs = s.inputs := rfl
@[simp] theorem finish_tape (v : Word) : (s.finish v).tape = s.tape := rfl
@[simp] theorem finish_free (v : Word) : (s.finish v).free = s.free := rfl
@[simp] theorem finish_trace (v : Word) : (s.finish v).trace = s.trace := rfl

/-! ### stall -/

@[simp] theorem stall_cfg (c : StallCause) (k : BitVec 3) (j : BitVec 2) (x : Nat) :
    (s.stall c k j x).cfg = s.cfg := rfl
@[simp] theorem stall_phase (c : StallCause) (k : BitVec 3) (j : BitVec 2) (x : Nat) :
    (s.stall c k j x).phase = .idle := rfl
@[simp] theorem stall_cmd (c : StallCause) (k : BitVec 3) (j : BitVec 2) (x : Nat) :
    (s.stall c k j x).cmd = s.cmd := rfl
@[simp] theorem stall_sub (c : StallCause) (k : BitVec 3) (j : BitVec 2) (x : Nat) :
    (s.stall c k j x).sub = s.sub := rfl
@[simp] theorem stall_step (c : StallCause) (k : BitVec 3) (j : BitVec 2) (x : Nat) :
    (s.stall c k j x).step = s.step := rfl
@[simp] theorem stall_pcnt (c : StallCause) (k : BitVec 3) (j : BitVec 2) (x : Nat) :
    (s.stall c k j x).pcnt = s.pcnt := rfl
@[simp] theorem stall_acc (c : StallCause) (k : BitVec 3) (j : BitVec 2) (x : Nat) :
    (s.stall c k j x).acc = s.acc := rfl
@[simp] theorem stall_vbyte (c : StallCause) (k : BitVec 3) (j : BitVec 2) (x : Nat) :
    (s.stall c k j x).vbyte = s.vbyte := rfl
@[simp] theorem stall_pend (c : StallCause) (k : BitVec 3) (j : BitVec 2) (x : Nat) :
    (s.stall c k j x).pend = s.pend := rfl
@[simp] theorem stall_ctrlShadow (c : StallCause) (k : BitVec 3) (j : BitVec 2) (x : Nat) :
    (s.stall c k j x).ctrlShadow = s.ctrlShadow := rfl
@[simp] theorem stall_initDone (c : StallCause) (k : BitVec 3) (j : BitVec 2) (x : Nat) :
    (s.stall c k j x).initDone = s.initDone := rfl
@[simp] theorem stall_overrun (c : StallCause) (k : BitVec 3) (j : BitVec 2) (x : Nat) :
    (s.stall c k j x).overrun = s.overrun := rfl
@[simp] theorem stall_rsp (c : StallCause) (k : BitVec 3) (j : BitVec 2) (x : Nat) :
    (s.stall c k j x).rsp = { valid := true, status := statusStalled, cause := c.code, step := k, sub := j, xerr := x, value := Config.freeWord s.free } := rfl
@[simp] theorem stall_host (c : StallCause) (k : BitVec 3) (j : BitVec 2) (x : Nat) :
    (s.stall c k j x).host = s.host := rfl
@[simp] theorem stall_inputs (c : StallCause) (k : BitVec 3) (j : BitVec 2) (x : Nat) :
    (s.stall c k j x).inputs = s.inputs := rfl
@[simp] theorem stall_tape (c : StallCause) (k : BitVec 3) (j : BitVec 2) (x : Nat) :
    (s.stall c k j x).tape = s.tape := rfl
@[simp] theorem stall_free (c : StallCause) (k : BitVec 3) (j : BitVec 2) (x : Nat) :
    (s.stall c k j x).free = s.free + 1 := rfl
@[simp] theorem stall_trace (c : StallCause) (k : BitVec 3) (j : BitVec 2) (x : Nat) :
    (s.stall c k j x).trace = s.trace := rfl

/-! ### illegal -/

@[simp] theorem illegal_cfg (c : IllegalCause) : (s.illegal c).cfg = s.cfg := rfl
@[simp] theorem illegal_phase (c : IllegalCause) : (s.illegal c).phase = s.phase := rfl
@[simp] theorem illegal_cmd (c : IllegalCause) : (s.illegal c).cmd = s.cmd := rfl
@[simp] theorem illegal_sub (c : IllegalCause) : (s.illegal c).sub = s.sub := rfl
@[simp] theorem illegal_step (c : IllegalCause) : (s.illegal c).step = s.step := rfl
@[simp] theorem illegal_pcnt (c : IllegalCause) : (s.illegal c).pcnt = s.pcnt := rfl
@[simp] theorem illegal_acc (c : IllegalCause) : (s.illegal c).acc = s.acc := rfl
@[simp] theorem illegal_vbyte (c : IllegalCause) : (s.illegal c).vbyte = s.vbyte := rfl
@[simp] theorem illegal_pend (c : IllegalCause) : (s.illegal c).pend = s.pend := rfl
@[simp] theorem illegal_ctrlShadow (c : IllegalCause) : (s.illegal c).ctrlShadow = s.ctrlShadow := rfl
@[simp] theorem illegal_initDone (c : IllegalCause) : (s.illegal c).initDone = s.initDone := rfl
@[simp] theorem illegal_overrun (c : IllegalCause) : (s.illegal c).overrun = s.overrun := rfl
@[simp] theorem illegal_rsp (c : IllegalCause) :
    (s.illegal c).rsp = { valid := true, status := statusIllegal, cause := c.code, step := 0, sub := 0, xerr := 0, value := Config.freeWord s.free } := rfl
@[simp] theorem illegal_host (c : IllegalCause) : (s.illegal c).host = s.host := rfl
@[simp] theorem illegal_inputs (c : IllegalCause) : (s.illegal c).inputs = s.inputs := rfl
@[simp] theorem illegal_tape (c : IllegalCause) : (s.illegal c).tape = s.tape := rfl
@[simp] theorem illegal_free (c : IllegalCause) : (s.illegal c).free = s.free + 1 := rfl
@[simp] theorem illegal_trace (c : IllegalCause) : (s.illegal c).trace = s.trace := rfl

/-! ### accept -/

@[simp] theorem accept_cfg (l : Latch) : (s.accept l).cfg = s.cfg := rfl
@[simp] theorem accept_phase (l : Latch) : (s.accept l).phase = .run := rfl
@[simp] theorem accept_cmd (l : Latch) : (s.accept l).cmd = l := rfl
@[simp] theorem accept_sub (l : Latch) : (s.accept l).sub = 0 := rfl
@[simp] theorem accept_step (l : Latch) : (s.accept l).step = 1 := rfl
@[simp] theorem accept_pcnt (l : Latch) : (s.accept l).pcnt = 0 := rfl
@[simp] theorem accept_acc (l : Latch) : (s.accept l).acc = s.acc := rfl
@[simp] theorem accept_vbyte (l : Latch) : (s.accept l).vbyte = s.vbyte := rfl
@[simp] theorem accept_pend (l : Latch) : (s.accept l).pend = s.pend := rfl
@[simp] theorem accept_ctrlShadow (l : Latch) : (s.accept l).ctrlShadow = s.ctrlShadow := rfl
@[simp] theorem accept_initDone (l : Latch) : (s.accept l).initDone = s.initDone := rfl
@[simp] theorem accept_overrun (l : Latch) : (s.accept l).overrun = s.overrun := rfl
@[simp] theorem accept_rsp (l : Latch) :
    (s.accept l).rsp = { s.rsp with valid := false, value := Config.freeWord s.free } := rfl
@[simp] theorem accept_host (l : Latch) : (s.accept l).host = s.host := rfl
@[simp] theorem accept_inputs (l : Latch) : (s.accept l).inputs = s.inputs := rfl
@[simp] theorem accept_tape (l : Latch) : (s.accept l).tape = s.tape := rfl
@[simp] theorem accept_free (l : Latch) : (s.accept l).free = s.free + 1 := rfl
@[simp] theorem accept_trace (l : Latch) : (s.accept l).trace = s.trace := rfl

/-! ### freePend -/

@[simp] theorem freePend_cfg : s.freePend.cfg = s.cfg := rfl
@[simp] theorem freePend_phase : s.freePend.phase = s.phase := rfl
@[simp] theorem freePend_cmd : s.freePend.cmd = s.cmd := rfl
@[simp] theorem freePend_sub : s.freePend.sub = s.sub := rfl
@[simp] theorem freePend_step : s.freePend.step = s.step := rfl
@[simp] theorem freePend_pcnt : s.freePend.pcnt = s.pcnt := rfl
@[simp] theorem freePend_acc : s.freePend.acc = s.acc := rfl
@[simp] theorem freePend_vbyte : s.freePend.vbyte = s.vbyte := rfl
@[simp] theorem freePend_pend : s.freePend.pend = (Config.freeWord s.free).setWidth 8 := rfl
@[simp] theorem freePend_ctrlShadow : s.freePend.ctrlShadow = s.ctrlShadow := rfl
@[simp] theorem freePend_initDone : s.freePend.initDone = s.initDone := rfl
@[simp] theorem freePend_overrun : s.freePend.overrun = s.overrun := rfl
@[simp] theorem freePend_rsp : s.freePend.rsp = s.rsp := rfl
@[simp] theorem freePend_host : s.freePend.host = s.host := rfl
@[simp] theorem freePend_inputs : s.freePend.inputs = s.inputs := rfl
@[simp] theorem freePend_tape : s.freePend.tape = s.tape := rfl
@[simp] theorem freePend_free : s.freePend.free = s.free + 1 := rfl
@[simp] theorem freePend_trace : s.freePend.trace = s.trace := rfl

/-! ### toTransfer -/

@[simp] theorem toTransfer_cfg (k : BitVec 3) : (s.toTransfer k).cfg = s.cfg := rfl
@[simp] theorem toTransfer_phase (k : BitVec 3) : (s.toTransfer k).phase = s.phase := rfl
@[simp] theorem toTransfer_cmd (k : BitVec 3) : (s.toTransfer k).cmd = s.cmd := rfl
@[simp] theorem toTransfer_sub (k : BitVec 3) : (s.toTransfer k).sub = s.sub := rfl
@[simp] theorem toTransfer_step (k : BitVec 3) : (s.toTransfer k).step = k := rfl
@[simp] theorem toTransfer_pcnt (k : BitVec 3) : (s.toTransfer k).pcnt = s.pcnt := rfl
@[simp] theorem toTransfer_acc (k : BitVec 3) : (s.toTransfer k).acc = s.acc := rfl
@[simp] theorem toTransfer_vbyte (k : BitVec 3) : (s.toTransfer k).vbyte = s.vbyte := rfl
@[simp] theorem toTransfer_pend (k : BitVec 3) : (s.toTransfer k).pend = s.pend := rfl
@[simp] theorem toTransfer_ctrlShadow (k : BitVec 3) : (s.toTransfer k).ctrlShadow = s.ctrlShadow := rfl
@[simp] theorem toTransfer_initDone (k : BitVec 3) : (s.toTransfer k).initDone = s.initDone := rfl
@[simp] theorem toTransfer_overrun (k : BitVec 3) : (s.toTransfer k).overrun = s.overrun := rfl
@[simp] theorem toTransfer_rsp (k : BitVec 3) : (s.toTransfer k).rsp = s.rsp := rfl
@[simp] theorem toTransfer_host (k : BitVec 3) : (s.toTransfer k).host = s.host := rfl
@[simp] theorem toTransfer_inputs (k : BitVec 3) : (s.toTransfer k).inputs = s.inputs := rfl
@[simp] theorem toTransfer_tape (k : BitVec 3) : (s.toTransfer k).tape = s.tape := rfl
@[simp] theorem toTransfer_free (k : BitVec 3) : (s.toTransfer k).free = s.free := rfl
@[simp] theorem toTransfer_trace (k : BitVec 3) : (s.toTransfer k).trace = s.trace := rfl

/-! ### toPoll -/

@[simp] theorem toPoll_cfg (k : BitVec 3) : (s.toPoll k).cfg = s.cfg := rfl
@[simp] theorem toPoll_phase (k : BitVec 3) : (s.toPoll k).phase = s.phase := rfl
@[simp] theorem toPoll_cmd (k : BitVec 3) : (s.toPoll k).cmd = s.cmd := rfl
@[simp] theorem toPoll_sub (k : BitVec 3) : (s.toPoll k).sub = s.sub := rfl
@[simp] theorem toPoll_step (k : BitVec 3) : (s.toPoll k).step = k := rfl
@[simp] theorem toPoll_pcnt (k : BitVec 3) : (s.toPoll k).pcnt = 0 := rfl
@[simp] theorem toPoll_acc (k : BitVec 3) : (s.toPoll k).acc = s.acc := rfl
@[simp] theorem toPoll_vbyte (k : BitVec 3) : (s.toPoll k).vbyte = s.vbyte := rfl
@[simp] theorem toPoll_pend (k : BitVec 3) : (s.toPoll k).pend = s.pend := rfl
@[simp] theorem toPoll_ctrlShadow (k : BitVec 3) : (s.toPoll k).ctrlShadow = s.ctrlShadow := rfl
@[simp] theorem toPoll_initDone (k : BitVec 3) : (s.toPoll k).initDone = s.initDone := rfl
@[simp] theorem toPoll_overrun (k : BitVec 3) : (s.toPoll k).overrun = s.overrun := rfl
@[simp] theorem toPoll_rsp (k : BitVec 3) : (s.toPoll k).rsp = s.rsp := rfl
@[simp] theorem toPoll_host (k : BitVec 3) : (s.toPoll k).host = s.host := rfl
@[simp] theorem toPoll_inputs (k : BitVec 3) : (s.toPoll k).inputs = s.inputs := rfl
@[simp] theorem toPoll_tape (k : BitVec 3) : (s.toPoll k).tape = s.tape := rfl
@[simp] theorem toPoll_free (k : BitVec 3) : (s.toPoll k).free = s.free := rfl
@[simp] theorem toPoll_trace (k : BitVec 3) : (s.toPoll k).trace = s.trace := rfl

/-! ### toAccess -/

@[simp] theorem toAccess_cfg (j : BitVec 2) : (s.toAccess j).cfg = s.cfg := rfl
@[simp] theorem toAccess_phase (j : BitVec 2) : (s.toAccess j).phase = s.phase := rfl
@[simp] theorem toAccess_cmd (j : BitVec 2) : (s.toAccess j).cmd = s.cmd := rfl
@[simp] theorem toAccess_sub (j : BitVec 2) : (s.toAccess j).sub = j := rfl
@[simp] theorem toAccess_step (j : BitVec 2) : (s.toAccess j).step = 1 := rfl
@[simp] theorem toAccess_pcnt (j : BitVec 2) : (s.toAccess j).pcnt = 0 := rfl
@[simp] theorem toAccess_acc (j : BitVec 2) : (s.toAccess j).acc = s.acc := rfl
@[simp] theorem toAccess_vbyte (j : BitVec 2) : (s.toAccess j).vbyte = s.vbyte := rfl
@[simp] theorem toAccess_pend (j : BitVec 2) : (s.toAccess j).pend = s.pend := rfl
@[simp] theorem toAccess_ctrlShadow (j : BitVec 2) : (s.toAccess j).ctrlShadow = s.ctrlShadow := rfl
@[simp] theorem toAccess_initDone (j : BitVec 2) : (s.toAccess j).initDone = s.initDone := rfl
@[simp] theorem toAccess_overrun (j : BitVec 2) : (s.toAccess j).overrun = s.overrun := rfl
@[simp] theorem toAccess_rsp (j : BitVec 2) : (s.toAccess j).rsp = s.rsp := rfl
@[simp] theorem toAccess_host (j : BitVec 2) : (s.toAccess j).host = s.host := rfl
@[simp] theorem toAccess_inputs (j : BitVec 2) : (s.toAccess j).inputs = s.inputs := rfl
@[simp] theorem toAccess_tape (j : BitVec 2) : (s.toAccess j).tape = s.tape := rfl
@[simp] theorem toAccess_free (j : BitVec 2) : (s.toAccess j).free = s.free := rfl
@[simp] theorem toAccess_trace (j : BitVec 2) : (s.toAccess j).trace = s.trace := rfl

/-! ### record -/

@[simp] theorem record_cfg (e : XEvent) : (s.record e).cfg = s.cfg := rfl
@[simp] theorem record_phase (e : XEvent) : (s.record e).phase = s.phase := rfl
@[simp] theorem record_cmd (e : XEvent) : (s.record e).cmd = s.cmd := rfl
@[simp] theorem record_sub (e : XEvent) : (s.record e).sub = s.sub := rfl
@[simp] theorem record_step (e : XEvent) : (s.record e).step = s.step := rfl
@[simp] theorem record_pcnt (e : XEvent) : (s.record e).pcnt = s.pcnt := rfl
@[simp] theorem record_acc (e : XEvent) : (s.record e).acc = s.acc := rfl
@[simp] theorem record_vbyte (e : XEvent) : (s.record e).vbyte = s.vbyte := rfl
@[simp] theorem record_pend (e : XEvent) : (s.record e).pend = s.pend := rfl
@[simp] theorem record_ctrlShadow (e : XEvent) : (s.record e).ctrlShadow = s.ctrlShadow := rfl
@[simp] theorem record_initDone (e : XEvent) : (s.record e).initDone = s.initDone := rfl
@[simp] theorem record_overrun (e : XEvent) : (s.record e).overrun = s.overrun := rfl
@[simp] theorem record_rsp (e : XEvent) : (s.record e).rsp = s.rsp := rfl
@[simp] theorem record_host (e : XEvent) : (s.record e).host = s.host := rfl
@[simp] theorem record_inputs (e : XEvent) : (s.record e).inputs = s.inputs := rfl
@[simp] theorem record_tape (e : XEvent) : (s.record e).tape = s.tape := rfl
@[simp] theorem record_free (e : XEvent) : (s.record e).free = s.free := rfl
@[simp] theorem record_trace (e : XEvent) : (s.record e).trace = e :: s.trace := rfl

/-! ### countRead -/

@[simp] theorem countRead_cfg : s.countRead.cfg = s.cfg := rfl
@[simp] theorem countRead_phase : s.countRead.phase = s.phase := rfl
@[simp] theorem countRead_cmd : s.countRead.cmd = s.cmd := rfl
@[simp] theorem countRead_sub : s.countRead.sub = s.sub := rfl
@[simp] theorem countRead_step : s.countRead.step = s.step := rfl
@[simp] theorem countRead_pcnt : s.countRead.pcnt = s.pcnt + 1 := rfl
@[simp] theorem countRead_acc : s.countRead.acc = s.acc := rfl
@[simp] theorem countRead_vbyte : s.countRead.vbyte = s.vbyte := rfl
@[simp] theorem countRead_pend : s.countRead.pend = s.pend := rfl
@[simp] theorem countRead_ctrlShadow : s.countRead.ctrlShadow = s.ctrlShadow := rfl
@[simp] theorem countRead_initDone : s.countRead.initDone = s.initDone := rfl
@[simp] theorem countRead_overrun : s.countRead.overrun = s.overrun := rfl
@[simp] theorem countRead_rsp : s.countRead.rsp = s.rsp := rfl
@[simp] theorem countRead_host : s.countRead.host = s.host := rfl
@[simp] theorem countRead_inputs : s.countRead.inputs = s.inputs := rfl
@[simp] theorem countRead_tape : s.countRead.tape = s.tape := rfl
@[simp] theorem countRead_free : s.countRead.free = s.free := rfl
@[simp] theorem countRead_trace : s.countRead.trace = s.trace := rfl

/-! ### dropAct -/

@[simp] theorem dropAct_cfg : s.dropAct.cfg = s.cfg := rfl
@[simp] theorem dropAct_phase : s.dropAct.phase = s.phase := rfl
@[simp] theorem dropAct_cmd : s.dropAct.cmd = s.cmd := rfl
@[simp] theorem dropAct_sub : s.dropAct.sub = s.sub := rfl
@[simp] theorem dropAct_step : s.dropAct.step = s.step := rfl
@[simp] theorem dropAct_pcnt : s.dropAct.pcnt = s.pcnt := rfl
@[simp] theorem dropAct_acc : s.dropAct.acc = s.acc := rfl
@[simp] theorem dropAct_vbyte : s.dropAct.vbyte = s.vbyte := rfl
@[simp] theorem dropAct_pend : s.dropAct.pend = s.pend := rfl
@[simp] theorem dropAct_ctrlShadow : s.dropAct.ctrlShadow = s.ctrlShadow := rfl
@[simp] theorem dropAct_initDone : s.dropAct.initDone = s.initDone := rfl
@[simp] theorem dropAct_overrun : s.dropAct.overrun = s.overrun := rfl
@[simp] theorem dropAct_rsp : s.dropAct.rsp = s.rsp := rfl
@[simp] theorem dropAct_host : s.dropAct.host = s.host := rfl
@[simp] theorem dropAct_inputs : s.dropAct.inputs = s.inputs.tail := rfl
@[simp] theorem dropAct_tape : s.dropAct.tape = s.tape := rfl
@[simp] theorem dropAct_free : s.dropAct.free = s.free := rfl
@[simp] theorem dropAct_trace : s.dropAct.trace = s.trace := rfl

/-! ### blockReset -/

@[simp] theorem blockReset_cfg : s.blockReset.cfg = s.cfg := rfl
@[simp] theorem blockReset_phase : s.blockReset.phase = .idle := rfl
@[simp] theorem blockReset_cmd : s.blockReset.cmd = Latch.zero := rfl
@[simp] theorem blockReset_sub : s.blockReset.sub = 0 := rfl
@[simp] theorem blockReset_step : s.blockReset.step = 0 := rfl
@[simp] theorem blockReset_pcnt : s.blockReset.pcnt = 0 := rfl
@[simp] theorem blockReset_acc : s.blockReset.acc = 0 := rfl
@[simp] theorem blockReset_vbyte : s.blockReset.vbyte = (Config.freeWord s.free).setWidth 8 := rfl
@[simp] theorem blockReset_pend : s.blockReset.pend = (Config.freeWord (s.free + 1)).setWidth 8 := rfl
@[simp] theorem blockReset_ctrlShadow : s.blockReset.ctrlShadow = 0 := rfl
@[simp] theorem blockReset_initDone : s.blockReset.initDone = false := rfl
@[simp] theorem blockReset_overrun : s.blockReset.overrun = false := rfl
@[simp] theorem blockReset_rsp :
    s.blockReset.rsp = { Response.zero with value := Config.freeWord (s.free + 2) } := rfl
@[simp] theorem blockReset_host : s.blockReset.host = s.host := rfl
@[simp] theorem blockReset_inputs : s.blockReset.inputs = s.inputs := rfl
@[simp] theorem blockReset_tape : s.blockReset.tape = s.tape := rfl
@[simp] theorem blockReset_free : s.blockReset.free = s.free + 3 := rfl
@[simp] theorem blockReset_trace : s.blockReset.trace = s.trace := rfl

end Sys2Proof.Machine
end

