-- ==== Sys2Proof/Laws/Ops.lean ====
section
/-! SUPPORT. One lemma for each shared operation that says once everything it can do. -/

namespace Sys2Proof.Machine

/-- The state after the transport's answer: only the tape or the free-value counter moved. -/
theorem answer_spec (s : State) : ∃ a tp fr, s.answer = (a, { s with tape := tp, free := fr }) := by
  unfold State.answer
  cases ht : s.tape with
  | nil => exact ⟨Config.freeAnswer s.free, [], s.free + 1, rfl⟩
  | cons a rest => exact ⟨a, rest, s.free, rfl⟩

/-- With an answer on the tape, that is the answer. -/
@[simp] theorem answer_cons (s : State) (a : Answer) (rest : List Answer) (h : s.tape = a :: rest) :
    s.answer = (a, { s with tape := rest }) := by simp [State.answer, h]

/-- R11: 1 <= POLL_BUDGET. -/
theorem pollBudget_pos (p : Params) : 1 ≤ p.pollBudget := Nat.le_add_left 1 _

/-- R11: POLL_BUDGET <= 65535, so `pcnt` can count it. -/
theorem pollBudget_le (p : Params) : p.pollBudget ≤ 65535 := p.budgetLessOne.isLt

/-- A failure code of XERR_W bits enters whole (R17). -/
theorem narrowXerr_of_lt {p : Params} {c : Nat} (h : c < 2 ^ p.xerrW) : narrowXerr p c = c := Nat.mod_eq_of_lt h

theorem narrowXerr_lt (p : Params) (c : Nat) : narrowXerr p c < 2 ^ p.xerrW :=
  Nat.mod_lt _ (by positivity)

/-- Everything a transport read can do: block, return a byte, or fail; its event is recorded if it was answered. -/
theorem physRead_spec (s : State) (r : Byte) : ∃ tp fr, let t : State := { s with tape := tp, free := fr }
    s.physRead r = (none, t)
    ∨ (∃ b, s.physRead r = (some (.ok b), t.record (.rdOk s.cfg.devAddr r b)))
    ∨ (∃ c, c < 2 ^ s.cfg.xerrW
        ∧ s.physRead r = (some (.fail c), t.record (.rdFail s.cfg.devAddr r c))) := by
  obtain ⟨a, tp, fr, h⟩ := answer_spec s
  refine ⟨tp, fr, ?_⟩
  unfold State.physRead
  rw [h]
  cases a with
  | ok b => exact .inr (.inl ⟨b, rfl⟩)
  | fail c => exact .inr (.inr ⟨_, narrowXerr_lt _ c, rfl⟩)
  | silent => exact .inl rfl

/-- Everything a transport write can do. -/
theorem physWrite_spec (s : State) (r v : Byte) : ∃ tp fr, let t : State := { s with tape := tp, free := fr }
    s.physWrite r v = (none, t)
    ∨ (∃ b, s.physWrite r v = (some (.ok b), t.record (.wrOk s.cfg.devAddr r v)))
    ∨ (∃ c, c < 2 ^ s.cfg.xerrW
        ∧ s.physWrite r v = (some (.fail c), t.record (.wrFail s.cfg.devAddr r v c))) := by
  obtain ⟨a, tp, fr, h⟩ := answer_spec s
  refine ⟨tp, fr, ?_⟩
  unfold State.physWrite
  rw [h]
  cases a with
  | ok b => exact .inr (.inl ⟨b, rfl⟩)
  | fail c => exact .inr (.inr ⟨_, narrowXerr_lt _ c, rfl⟩)
  | silent => exact .inl rfl

/-- The state after one more STATUS read of a POLL, with its event `e`. -/
def afterPollRead (s : State) (tp : List Answer) (fr : Nat) (e : XEvent) : State :=
  { s with tape := tp, free := fr, trace := e :: s.trace, pcnt := s.pcnt + 1 }

/-- Everything one engine step of POLL can do (R145): block; see the condition and go on; read again; or stall, on
TIMEOUT with the budget spent or on TRANSPORT under ABORT. -/
theorem pollStep_spec (s : State) (c : PollCond) (seen : State → State) : ∃ tp fr,
    s.pollStep c seen = { s with tape := tp, free := fr }
    ∨ (∃ e, e.shows s.cfg c ∧ s.pollStep c seen = seen (afterPollRead s tp fr e))
    ∨ (∃ e, e.isStatusRead s.cfg ∧ (s.pcnt + 1).toNat < s.cfg.pollBudget
        ∧ s.pollStep c seen = afterPollRead s tp fr e)
    ∨ (∃ e, e.isStatusRead s.cfg ∧ s.cfg.pollBudget ≤ (s.pcnt + 1).toNat
        ∧ s.pollStep c seen = (afterPollRead s tp fr e).stall .timeout s.step s.sub 0)
    ∨ (∃ e x, e.isStatusRead s.cfg ∧ x < 2 ^ s.cfg.xerrW
        ∧ s.pollStep c seen = (afterPollRead s tp fr e).stall .transport s.step s.sub x) := by
  have missed : ∀ tp fr e, e.isStatusRead s.cfg →
      ((s.pcnt + 1).toNat < s.cfg.pollBudget
        ∧ (afterPollRead s tp fr e).pollMissed = afterPollRead s tp fr e)
      ∨ (s.cfg.pollBudget ≤ (s.pcnt + 1).toNat
        ∧ (afterPollRead s tp fr e).pollMissed = (afterPollRead s tp fr e).stall .timeout s.step s.sub 0) := by
    intro tp fr e _
    by_cases h : (s.pcnt + 1).toNat < s.cfg.pollBudget
    · exact .inl ⟨h, if_pos h⟩
    · exact .inr ⟨by omega, if_neg h⟩
  obtain ⟨tp, fr, h | ⟨b, h⟩ | ⟨x, hx, h⟩⟩ := physRead_spec s s.cfg.pregStatus <;>
    refine ⟨tp, fr, ?_⟩ <;> unfold State.pollStep <;> rw [h]
  · exact .inl rfl
  · by_cases hb : c.holds s.cfg b
    · exact .inr (.inl ⟨.rdOk s.cfg.devAddr s.cfg.pregStatus b, ⟨rfl, rfl, hb⟩, by simp only [hb]; rfl⟩)
    · have he : XEvent.isStatusRead s.cfg (.rdOk s.cfg.devAddr s.cfg.pregStatus b) := ⟨rfl, rfl⟩
      simp only [hb]
      rcases missed tp fr _ he with ⟨hlt, hm⟩ | ⟨hge, hm⟩
      · exact .inr (.inr (.inl ⟨_, he, hlt, hm⟩))
      · exact .inr (.inr (.inr (.inl ⟨_, he, hge, hm⟩)))
  · have he : XEvent.isStatusRead s.cfg (.rdFail s.cfg.devAddr s.cfg.pregStatus x) := ⟨rfl, rfl⟩
    cases hf : s.cfg.pollXfail with
    | abort => exact .inr (.inr (.inr (.inr ⟨_, x, he, hx, rfl⟩)))
    | retry =>
      rcases missed tp fr _ he with ⟨hlt, hm⟩ | ⟨hge, hm⟩
      · exact .inr (.inr (.inl ⟨_, he, hlt, hm⟩))
      · exact .inr (.inr (.inr (.inl ⟨_, he, hge, hm⟩)))

/-- Everything one write to WRITE can do: block, go on, or stall on TRANSPORT (R282). -/
theorem writeStep_spec (s : State) (v : Byte) (sent : State → State) : ∃ tp fr,
    s.writeStep v sent = { s with tape := tp, free := fr }
    ∨ s.writeStep v sent =
        sent { s with tape := tp, free := fr,
                      trace := .wrOk s.cfg.devAddr s.cfg.pregWrite v :: s.trace }
    ∨ (∃ x, x < 2 ^ s.cfg.xerrW ∧ s.writeStep v sent =
        ({ s with tape := tp, free := fr,
                  trace := .wrFail s.cfg.devAddr s.cfg.pregWrite v x :: s.trace } : State).stall
          .transport s.step s.sub x) := by
  obtain ⟨tp, fr, h | ⟨b, h⟩ | ⟨x, hx, h⟩⟩ := physWrite_spec s s.cfg.pregWrite v <;>
    refine ⟨tp, fr, ?_⟩ <;> unfold State.writeStep <;> rw [h]
  · exact .inl rfl
  · exact .inr (.inl rfl)
  · exact .inr (.inr ⟨x, hx, rfl⟩)

/-- Everything one read of READ can do: block, give VBYTE a byte and go on, or stall on TRANSPORT (R171, R282). -/
theorem readStep_spec (s : State) (got : State → State) : ∃ tp fr,
    s.readStep got = { s with tape := tp, free := fr }
    ∨ (∃ b, s.readStep got =
        got { s with tape := tp, free := fr, vbyte := b,
                     trace := .rdOk s.cfg.devAddr s.cfg.pregRead b :: s.trace })
    ∨ (∃ x, x < 2 ^ s.cfg.xerrW ∧ s.readStep got =
        ({ s with tape := tp, free := fr,
                  trace := .rdFail s.cfg.devAddr s.cfg.pregRead x :: s.trace } : State).stall
          .transport s.step s.sub x) := by
  obtain ⟨tp, fr, h | ⟨b, h⟩ | ⟨x, hx, h⟩⟩ := physRead_spec s s.cfg.pregRead <;>
    refine ⟨tp, fr, ?_⟩ <;> unfold State.readStep <;> rw [h]
  · exact .inl rfl
  · exact .inr (.inl ⟨b, rfl⟩)
  · exact .inr (.inr ⟨x, hx, rfl⟩)

/-- In IDLE a command is refused by its value check or accepted. -/
theorem runCommand_idle (i : Instr) (check : Option IllegalCause) (start : State → State) (body : State → Result)
    (s : State) (h : s.phase = .idle) :
    runCommand i check start body s =
      match check with
      | some c => .next (s.illegal c)
      | none => .next (start (s.accept (latchOf i))) := by
  cases check <;> simp [runCommand, h]

/-- In RUN the latched command makes its engine step. -/
theorem runCommand_run (i : Instr) (check : Option IllegalCause) (start : State → State) (body : State → Result)
    (s : State) (h : s.phase = .run) (hc : s.cmd = latchOf i) :
    runCommand i check start body s = body s := by
  simp [runCommand, h, hc]

/-- The latch tells its command. -/
@[simp] theorem instrOf_latchOf (i : Instr) : instrOf (latchOf i) = some i := by
  cases i <;> rfl

/-- Two commands with one latch are one command. -/
theorem latchOf_injective {i j : Instr} (h : latchOf i = latchOf j) : i = j := by
  have := congrArg instrOf h
  simpa using this

/-- A step with no listed act and no MREAD is the engine's own step. -/
theorem step_alone (s : State) (h : s.alone) : step s = engineStep s := by
  have hd : s.dropAct = s := by
    cases s
    simp_all [State.dropAct, State.alone]
  have ha : s.nextAct = .wait := by simp [State.nextAct, h.1]
  simp [step, machineStep, ha, hd, actStep, hostStep, h.2]

/-- In RUN the engine's own step is the latched command's. -/
theorem engineStep_run (s : State) (i : Instr) (h : s.phase = .run) (hc : s.cmd = latchOf i) :
    engineStep s = exec i s := by
  simp [engineStep, h, hc]

/-- In IDLE the engine does nothing (R31). -/
theorem engineStep_idle (s : State) (h : s.phase = .idle) : engineStep s = .next s := by
  simp [engineStep, h]

end Sys2Proof.Machine
end

