-- ==== Sys2Proof/Laws/Engine.lean ====
section
/-! SUPPORT. Every command's engine step is one step of its current virtual access (spec 41_virtual_register_protocol.md
R160): `exec_idle`, `exec_run`, and `runAccess_spec`, which says once everything such a step can do. -/

namespace Sys2Proof.Machine

/-- What a command does when its current virtual access is done (R165, R175, R190, R215, R220, R225). -/
def accessDone : Instr → State → State
  | .writev _ _ => fun t => t.finish 0
  | .readv _ => fun t => t.finish (t.vbyte.setWidth 32)
  | .readmb _ _ => mbByteRead
  | .init => initWritten
  | .setled _ _ _ => fun t => t.finish 0
  | .startmeas => startmeasWritten

/-- What a command does at accept beyond `State.accept`. -/
def startOf : Instr → State → State
  | .writev _ _ => fun t => t
  | .readv _ => fun t => t
  | .readmb _ _ => fun t => { t with acc := 0 }
  | .init => initStart
  | .setled _ _ _ => fun t => t
  | .startmeas => startmeasStart

/-- One engine step of a virtual access. -/
def runAccess (acc : Access) (done : State → State) (s : State) : Result :=
  match acc with
  | .write a d => vwriteStep a d done s
  | .read a => vreadStep a done s

/-- In IDLE every command is refused by its value check or accepted. -/
theorem exec_idle (i : Instr) (s : State) (h : s.phase = .idle) :
    exec i s = match operandCheck s.cfg s.initDone i with
      | some c => .next (s.illegal c)
      | none => .next (startOf i (s.accept (latchOf i))) := by
  cases hc : operandCheck s.cfg s.initDone i <;> cases i <;>
    simp_all [exec, execWritev, execReadv, execReadmb, execInit, execSetled, execStartmeas, runCommand, operandCheck,
      startOf]

/-- In RUN a command that is not the latched one stops the machine. -/
theorem exec_other (i : Instr) (s : State) (h : s.phase = .run) (hc : s.cmd ≠ latchOf i) :
    exec i s = .fault .notTheRunningCommand := by
  cases i <;> simp_all [exec, execWritev, execReadv, execReadmb, execInit, execSetled, execStartmeas, runCommand]

/-- The virtual access of the latched command, if it is at one of its accesses. -/
theorem access_isSome (i : Instr) (s : State) (hc : s.cmd = latchOf i) : ∃ acc, s.access = some acc := by
  cases i <;> simp [State.access, hc]

/-- In RUN the latched command makes one step of its current virtual access. -/
theorem exec_run (i : Instr) (acc : Access) (s : State) (h : s.phase = .run) (hc : s.cmd = latchOf i)
    (ha : s.access = some acc) (hs : s.sub.toNat < accessCount i) :
    exec i s = runAccess acc (accessDone i) s := by
  have h0 : accessCount i = 1 → s.sub = 0 := fun h1 => by
    apply BitVec.eq_of_toNat_eq
    simp only [BitVec.ofNat_eq_ofNat, BitVec.toNat_ofNat]
    omega
  simp only [State.access, hc, instrOf_latchOf] at ha
  cases i <;> cases ha <;>
    simp_all [exec, execWritev, execReadv, execReadmb, execInit, execSetled, execStartmeas, runCommand_run _ _ _ _ s h hc,
      onlyAccess0, accessCount, latchOf, runAccess, accessDone, Latch.zero]

/-- In RUN at no access of the command, the machine stops. -/
theorem exec_run_none (i : Instr) (s : State) (h : s.phase = .run) (hc : s.cmd = latchOf i)
    (hs : accessCount i ≤ s.sub.toNat) : exec i s = .fault .noSuchPosition := by
  have h0 : accessCount i = 1 → s.sub ≠ 0 := fun h1 h2 => by
    simp only [h2, h1] at hs
    exact absurd hs (by decide)
  cases i <;>
    simp_all [exec, execWritev, execReadv, execReadmb, execInit, execSetled, execStartmeas, runCommand_run _ _ _ _ s h hc,
      onlyAccess0, accessCount, latchOf, Latch.zero]
  exact fun _ => by omega

/-- The state after a transaction answered with event `e`. -/
def afterEvent (s : State) (tp : List Answer) (fr : Nat) (e : XEvent) : State :=
  { s with tape := tp, free := fr, trace := e :: s.trace }

/-- Everything one step of a virtual access can do at step `k` (R161, R171): stop where it has no step `k`; block; poll
again; see the condition and go to the next transfer, or be done; send the byte and go to the next poll; read the byte
and be done; or stall. -/
inductive AccessStep (acc : Access) (done : State → State) (s : State) : Result → Prop
  | off : acc.hasStep s.step = false → AccessStep acc done s (.fault .noSuchPosition)
  | blocked (tp fr) : acc.hasStep s.step = true → AccessStep acc done s (.next { s with tape := tp, free := fr })
  | again (tp fr c e) : acc.polls s.step = some c → e.isStatusRead s.cfg →
      (s.pcnt + 1).toNat < s.cfg.pollBudget → AccessStep acc done s (.next (afterPollRead s tp fr e))
  | seen (tp fr c e) : acc.polls s.step = some c → e.shows s.cfg c → (s.step = 1 ∨ s.step = 3) →
      AccessStep acc done s (.next ((afterPollRead s tp fr e).toTransfer (s.step + 1)))
  | written (a d tp fr e) : acc = .write a d → s.step = 5 → e.shows s.cfg .txClear →
      AccessStep acc done s (.next (done (afterPollRead s tp fr e)))
  | sent (tp fr v) : (s.step = 2 ∧ v = acc.addressByte ∨ s.step = 4 ∧ ∃ a, acc = .write a v) →
      AccessStep acc done s (.next ((afterEvent s tp fr (.wrOk s.cfg.devAddr s.cfg.pregWrite v)).toPoll (s.step + 1)))
  | got (a b tp fr) : acc = .read a → s.step = 4 →
      AccessStep acc done s (.next (done { afterEvent s tp fr (.rdOk s.cfg.devAddr s.cfg.pregRead b) with
        vbyte := b }))
  | timeout (tp fr c e) : acc.polls s.step = some c → e.isStatusRead s.cfg →
      s.cfg.pollBudget ≤ (s.pcnt + 1).toNat →
      AccessStep acc done s (.next ((afterPollRead s tp fr e).stall .timeout s.step s.sub 0))
  | aborted (tp fr c e x) : acc.polls s.step = some c → e.isStatusRead s.cfg → x < 2 ^ s.cfg.xerrW →
      AccessStep acc done s (.next ((afterPollRead s tp fr e).stall .transport s.step s.sub x))
  | writeFailed (tp fr v x) : (s.step = 2 ∧ v = acc.addressByte ∨ s.step = 4 ∧ ∃ a, acc = .write a v) →
      x < 2 ^ s.cfg.xerrW → AccessStep acc done s (.next ((afterEvent s tp fr (.wrFail s.cfg.devAddr s.cfg.pregWrite v x)).stall
        .transport s.step s.sub x))
  | readFailed (a tp fr x) : acc = .read a → s.step = 4 → x < 2 ^ s.cfg.xerrW →
      AccessStep acc done s (.next ((afterEvent s tp fr (.rdFail s.cfg.devAddr s.cfg.pregRead x)).stall
        .transport s.step s.sub x))

/-- A polling step before a transfer. -/
theorem pollStep_toTransfer (acc : Access) (done : State → State) (s : State) (c : PollCond) (k : BitVec 3)
    (hp : acc.polls s.step = some c) (hk : s.step = 1 ∨ s.step = 3) (hn : k = s.step + 1)
    (hh : acc.hasStep s.step = true) :
    AccessStep acc done s (.next (s.pollStep c (fun t => t.toTransfer k))) := by
  subst hn
  obtain ⟨tp, fr, h | ⟨e, he, h⟩ | ⟨e, he, hl, h⟩ | ⟨e, he, hg, h⟩ | ⟨e, x, he, hx, h⟩⟩ :=
    pollStep_spec s c (fun t => t.toTransfer (s.step + 1)) <;> rw [h]
  · exact .blocked tp fr hh
  · exact .seen tp fr c e hp he hk
  · exact .again tp fr c e hp he hl
  · exact .timeout tp fr c e hp he hg
  · exact .aborted tp fr c e x hp he hx

/-- The last polling step of a virtual write. -/
theorem pollStep_written (a : VAddr) (d : Byte) (done : State → State) (s : State) (hk : s.step = 5) :
    AccessStep (.write a d) done s (.next (s.pollStep .txClear done)) := by
  have hp : (Access.write a d).polls s.step = some .txClear := by simp [Access.polls, hk]
  obtain ⟨tp, fr, h | ⟨e, he, h⟩ | ⟨e, he, hl, h⟩ | ⟨e, he, hg, h⟩ | ⟨e, x, he, hx, h⟩⟩ :=
    pollStep_spec s .txClear done <;> rw [h]
  · exact .blocked tp fr (by rw [hk]; rfl)
  · exact .written a d tp fr e rfl hk he
  · exact .again tp fr _ e hp he hl
  · exact .timeout tp fr _ e hp he hg
  · exact .aborted tp fr _ e x hp he hx

/-- A WRITE transaction of a virtual access. -/
theorem writeStep_sent (acc : Access) (done : State → State) (s : State) (v : Byte) (k : BitVec 3)
    (hv : s.step = 2 ∧ v = acc.addressByte ∨ s.step = 4 ∧ ∃ a, acc = .write a v) (hn : k = s.step + 1)
    (hh : acc.hasStep s.step = true) :
    AccessStep acc done s (.next (s.writeStep v (fun t => t.toPoll k))) := by
  subst hn
  obtain ⟨tp, fr, h | h | ⟨x, hx, h⟩⟩ := writeStep_spec s v (fun t => t.toPoll (s.step + 1)) <;> rw [h]
  · exact .blocked tp fr hh
  · exact .sent tp fr v hv
  · exact .writeFailed tp fr v x hv hx

/-- The READ transaction of a virtual read. -/
theorem readStep_got (a : VAddr) (done : State → State) (s : State) (hk : s.step = 4) :
    AccessStep (.read a) done s (.next (s.readStep done)) := by
  obtain ⟨tp, fr, h | ⟨b, h⟩ | ⟨x, hx, h⟩⟩ := readStep_spec s done <;> rw [h]
  · exact .blocked tp fr (by rw [hk]; rfl)
  · exact .got a b tp fr rfl hk
  · exact .readFailed a tp fr x rfl hk hx

/-- The eight values of the `step` register. -/
theorem step_values (k : BitVec 3) :
    k = 0 ∨ k = 1 ∨ k = 2 ∨ k = 3 ∨ k = 4 ∨ k = 5 ∨ k = 6 ∨ k = 7 := by
  revert k
  decide

/-- Everything one step of a virtual access can do. -/
theorem runAccess_spec (acc : Access) (done : State → State) (s : State) :
    AccessStep acc done s (runAccess acc done s) := by
  cases acc with
  | write a d =>
    rcases step_values s.step with h | h | h | h | h | h | h | h <;>
      simp only [runAccess, vwriteStep, h, BitVec.toNat_ofNat, BitVec.ofNat_eq_ofNat, Nat.reducePow, Nat.reduceMod]
    · exact .off (by rw [h]; rfl)
    · exact pollStep_toTransfer _ _ _ _ _ (by simp [Access.polls, h]) (.inl h) (by rw [h]; rfl) (by rw [h]; rfl)
    · exact writeStep_sent _ _ _ _ _ (.inl ⟨h, rfl⟩) (by rw [h]; rfl) (by rw [h]; rfl)
    · exact pollStep_toTransfer _ _ _ _ _ (by simp [Access.polls, h]) (.inr h) (by rw [h]; rfl) (by rw [h]; rfl)
    · exact writeStep_sent _ _ _ _ _ (.inr ⟨h, a, rfl⟩) (by rw [h]; rfl) (by rw [h]; rfl)
    · exact pollStep_written a d done s h
    · exact .off (by rw [h]; rfl)
    · exact .off (by rw [h]; rfl)
  | read a =>
    rcases step_values s.step with h | h | h | h | h | h | h | h <;>
      simp only [runAccess, vreadStep, h, BitVec.toNat_ofNat, BitVec.ofNat_eq_ofNat, Nat.reducePow, Nat.reduceMod]
    · exact .off (by rw [h]; rfl)
    · exact pollStep_toTransfer _ _ _ _ _ (by simp [Access.polls, h]) (.inl h) (by rw [h]; rfl) (by rw [h]; rfl)
    · exact writeStep_sent _ _ _ _ _ (.inl ⟨h, rfl⟩) (by rw [h]; rfl) (by rw [h]; rfl)
    · exact pollStep_toTransfer _ _ _ _ _ (by simp [Access.polls, h]) (.inr h) (by rw [h]; rfl) (by rw [h]; rfl)
    · exact readStep_got a done s h
    · exact .off (by rw [h]; rfl)
    · exact .off (by rw [h]; rfl)
    · exact .off (by rw [h]; rfl)

end Sys2Proof.Machine
end

