-- ==== Sys2Proof/Laws/Bytes.lean ====
section
/-! SUPPORT. The bits of the control byte and of the LED byte (spec 43_chip_controller.md R211, R214). -/

namespace Sys2Proof.Machine

/-- Bit `k` of a field `x` of width `w` put at position `p` of a byte. -/
theorem placed_getLsbD {w : Nat} (x : BitVec w) (p k : Nat) :
    (x.setWidth 8 <<< p).getLsbD k = (decide (k < 8) && decide (p ≤ k) && x.getLsbD (k - p)) := by
  simp only [BitVec.getLsbD_shiftLeft, BitVec.getLsbD_setWidth]
  by_cases h8 : k < 8 <;> by_cases hp : p ≤ k <;> simp [h8, hp, Nat.not_lt.mpr]
  omega

/-- A placed field has no bit outside its place. -/
theorem placed_outside {w : Nat} (x : BitVec w) (p k : Nat) (h : k < p ∨ p + w ≤ k) :
    (x.setWidth 8 <<< p).getLsbD k = false := by
  rw [placed_getLsbD]
  rcases h with h | h
  · simp [Nat.not_le.mpr h]
  · have : x.getLsbD (k - p) = false := BitVec.getLsbD_of_ge _ _ (by omega)
    simp [this]

/-- A placed field's own bits. -/
theorem placed_inside {w : Nat} (x : BitVec w) (p j : Nat) (h : p + j < 8) :
    (x.setWidth 8 <<< p).getLsbD (p + j) = x.getLsbD j := by
  rw [placed_getLsbD]
  simp [h]

/-- The places of a well-formed control layout are apart. -/
theorem ctrl_apart {p : Params} (h : p.wf = true) : p.ctrl.bits.Nodup := by
  simp [Params.wf, Params.checks] at h
  tauto

/-- The places of a well-formed LED layout are apart. -/
theorem led_apart {p : Params} (h : p.wf = true) : p.led.bits.Nodup := by
  simp [Params.wf, Params.checks] at h
  tauto

/-- The MODE field of a control byte. -/
theorem ctrlMode_ctrlByte {l : CtrlLayout} (h : l.bits.Nodup) (r i : BitVec 1) (g m : BitVec 2) :
    ctrlMode l (ctrlByte l r i g m) = m := by
  apply BitVec.eq_of_getLsbD_eq
  intro j hj
  have := l.mode.isLt
  simp [CtrlLayout.bits] at h
  simp only [ctrlMode, ctrlByte, BitVec.getLsbD_setWidth, hj, decide_true, Bool.true_and, BitVec.getLsbD_ushiftRight,
    BitVec.getLsbD_or]
  rw [placed_inside _ _ _ (by omega), placed_outside r _ _ (by omega), placed_outside i _ _ (by omega),
    placed_outside g _ _ (by omega)]
  simp

/-- The GAIN field of a control byte. -/
theorem ctrlGain_ctrlByte {l : CtrlLayout} (h : l.bits.Nodup) (r i : BitVec 1) (g m : BitVec 2) :
    ctrlGain l (ctrlByte l r i g m) = g := by
  apply BitVec.eq_of_getLsbD_eq
  intro j hj
  have := l.gain.isLt
  simp [CtrlLayout.bits] at h
  simp only [ctrlGain, ctrlByte, BitVec.getLsbD_setWidth, hj, decide_true, Bool.true_and, BitVec.getLsbD_ushiftRight,
    BitVec.getLsbD_or]
  rw [placed_inside _ _ _ (by omega), placed_outside r _ _ (by omega), placed_outside i _ _ (by omega),
    placed_outside m _ _ (by omega)]
  simp

/-- The INT field of a control byte. -/
theorem ctrlInt_ctrlByte {l : CtrlLayout} (h : l.bits.Nodup) (r i : BitVec 1) (g m : BitVec 2) :
    ctrlInt l (ctrlByte l r i g m) = i := by
  apply BitVec.eq_of_getLsbD_eq
  intro j hj
  have := l.int.isLt
  simp [CtrlLayout.bits] at h
  simp only [ctrlInt, ctrlByte, BitVec.getLsbD_setWidth, hj, decide_true, Bool.true_and, BitVec.getLsbD_ushiftRight,
    BitVec.getLsbD_or]
  rw [placed_inside _ _ _ (by omega), placed_outside r _ _ (by omega), placed_outside g _ _ (by omega),
    placed_outside m _ _ (by omega)]
  simp

end Sys2Proof.Machine
end

