-- ==== Sys2Proof/Laws/Memory.lean ====
section
/-! SUPPORT. Byte memories: a read after a write, and that every operation keeps the canonical form. -/

namespace Sys2Proof.Machine

/-- The empty memory is in canonical form, so the reference chip's initial memory is. -/
theorem wf_initial : Memory.wf RefChip.initial.vreg = true := rfl

/-- An address below every listed one is not listed. -/
theorem read_above {k a : Nat} {m : Memory} (h : Memory.above k m = true) (ha : a ≤ k) :
    Memory.read m a = Memory.unlisted := by
  induction m with
  | nil => rfl
  | cons c m ih =>
    simp only [Memory.above, List.all_cons, Bool.and_eq_true, decide_eq_true_eq] at h
    rw [Memory.read, if_neg (by omega)]
    exact ih h.2

/-- What a pushed cell reads as, over a memory that does not list its address. -/
theorem read_push {a x : Nat} {v : Byte} {m : Memory} (h : Memory.read m a = Memory.unlisted) :
    Memory.read (Memory.push a v m) x = if x = a then v else Memory.read m x := by
  unfold Memory.push
  by_cases hv : v = Memory.unlisted
  · rw [if_pos hv]
    split
    · next hx => rw [hx, h, hv]
    · rfl
  · rw [if_neg hv]
    by_cases hx : x = a
    · rw [Memory.read, if_pos hx.symm, if_pos hx]
    · rw [Memory.read, if_neg (Ne.symm hx), if_neg hx]

/-- A bound below every listed address can be lowered. -/
theorem above_mono {j k : Nat} {m : Memory} (hj : j ≤ k) (h : Memory.above k m = true) :
    Memory.above j m = true := by
  simp only [Memory.above, List.all_eq_true, decide_eq_true_eq] at h ⊢
  exact fun c hc => lt_of_le_of_lt hj (h c hc)

/-- Pushing a cell keeps the canonical form. -/
theorem wf_push {a : Nat} {v : Byte} {m : Memory} (ha : Memory.above a m = true) (h : Memory.wf m = true) :
    Memory.wf (Memory.push a v m) = true := by
  unfold Memory.push
  split
  · exact h
  · next hv => simp [Memory.wf, hv, ha, h]

/-- A pushed cell is above what it and the rest are above. -/
theorem above_push {k a : Nat} {v : Byte} {m : Memory} (hk : k < a) (h : Memory.above k m = true) :
    Memory.above k (Memory.push a v m) = true := by
  unfold Memory.push
  split
  · exact h
  · simpa [Memory.above, hk] using h

/-- Writing above a bound keeps the bound. -/
theorem above_write {k a : Nat} {v : Byte} {m : Memory} (hk : k < a) (h : Memory.above k m = true) :
    Memory.above k (Memory.write m a v) = true := by
  induction m with
  | nil => exact above_push hk rfl
  | cons c m ih =>
    obtain ⟨j, b⟩ := c
    have hm : Memory.above k m = true := by
      simp only [Memory.above, List.all_cons, Bool.and_eq_true] at h ⊢
      exact h.2
    rw [Memory.write]
    split
    · exact above_push hk h
    · split
      · exact above_push hk hm
      · simp only [Memory.above, List.all_cons, Bool.and_eq_true] at h ⊢
        exact ⟨h.1, ih hm⟩

/-- A write keeps the canonical form. -/
theorem wf_write {a : Nat} {v : Byte} {m : Memory} (h : Memory.wf m = true) :
    Memory.wf (Memory.write m a v) = true := by
  induction m with
  | nil => exact wf_push rfl rfl
  | cons c m ih =>
    obtain ⟨k, b⟩ := c
    have hc := h
    simp only [Memory.wf, Bool.and_eq_true, decide_eq_true_eq] at h
    rw [Memory.write]
    split
    · next hlt =>
      refine wf_push ?_ hc
      have := above_mono (le_of_lt hlt) h.1.2
      simpa [Memory.above, hlt] using this
    · next hlt =>
      split
      · next he => exact wf_push (he ▸ h.1.2) h.2
      · next he =>
        simp only [Memory.wf, Bool.and_eq_true, decide_eq_true_eq]
        exact ⟨⟨h.1.1, above_write (by omega) h.1.2⟩, ih h.2⟩

/-- Several writes keep the canonical form. -/
theorem wf_writeAll {m : Memory} (img : List (Nat × Byte)) (h : Memory.wf m = true) :
    Memory.wf (Memory.writeAll m img) = true := by
  induction img generalizing m with
  | nil => exact h
  | cons c img ih => exact ih (wf_write h)

/-- A read after a write: the value written at its address, the byte that was there at every other. -/
theorem read_write {a x : Nat} {v : Byte} {m : Memory} (h : Memory.wf m = true) :
    Memory.read (Memory.write m a v) x = if x = a then v else Memory.read m x := by
  induction m with
  | nil => exact read_push rfl
  | cons c m ih =>
    obtain ⟨k, b⟩ := c
    simp only [Memory.wf, Bool.and_eq_true, decide_eq_true_eq] at h
    rw [Memory.write]
    split
    · next hlt =>
      refine read_push ?_
      rw [Memory.read, if_neg (by omega)]
      exact read_above h.1.2 (le_of_lt hlt)
    · split
      · next he =>
        subst he
        rw [read_push (read_above h.1.2 le_rfl), Memory.read]
        by_cases hx : x = a
        · simp [hx]
        · rw [if_neg hx, if_neg hx, if_neg (Ne.symm hx)]
      · next he =>
        rw [Memory.read, Memory.read, ih h.2]
        by_cases hx : x = k
        · rw [if_pos hx.symm, if_neg (by omega), if_pos hx.symm]
        · rw [if_neg (Ne.symm hx), if_neg (Ne.symm hx)]

/-- The reference chip's write of a virtual register keeps its memory canonical. -/
theorem wf_vwrite (p : Params) (rc : RefChip) (a : VAddr) (v : Byte) (h : Memory.wf rc.vreg = true) :
    Memory.wf (rc.vwrite p a v).vreg = true := by
  unfold RefChip.vwrite
  split
  · rfl
  · exact wf_write h

/-- The harness action keeps the reference chip's memory canonical. -/
theorem wf_convert (p : Params) (rc : RefChip) (img : List (Nat × Byte)) (h : Memory.wf rc.vreg = true) :
    Memory.wf (rc.convert p img).vreg = true := wf_write (wf_writeAll img h)

end Sys2Proof.Machine
end

