-- ==== Sys2Proof/Laws/PerInstr.lean ====
section
/-! SUPPORT. The statements made once per command: every command word carries its command's opcode in bits 31:28
(spec 30_encoding.md R111, R113). -/

open Sys2Proof Sys2Proof.Machine

/-- The opcode field of a command's word is that command's opcode. -/
def Sys2Proof.Laws.OpcodeField.Statement (i : Instr) : Prop := fieldOp (encode i) = opcodeOf i

/-- Bit `j` of a command word's opcode field is bit `28 + j` of the word. -/
theorem Sys2Proof.Laws.fieldOp_getLsbD (w : Word) (j : Nat) (hj : j < 4) :
    (fieldOp w).getLsbD j = w.getLsbD (28 + j) := by
  simp only [fieldOp, BitVec.getLsbD_extractLsb', hj, decide_true, Bool.true_and]

/-- WRITEV's opcode field. -/
theorem Sys2Proof.Laws.OpcodeField.writev (addr : VAddr) (data : Byte) :
    Sys2Proof.Laws.OpcodeField.Statement (.writev addr data) := by
  refine BitVec.eq_of_getLsbD_eq fun j hj => (Sys2Proof.Laws.fieldOp_getLsbD _ j hj).trans ?_
  show (0x1#4 ++ 0#13 ++ addr ++ data : BitVec (4 + 13 + 7 + 8)).getLsbD (28 + j)
    = (0x1#4).getLsbD j
  rw [BitVec.getLsbD_append, if_neg (by omega),
    BitVec.getLsbD_append, if_neg (by omega),
    BitVec.getLsbD_append, if_neg (by omega),
    show 28 + j - 8 - 7 - 13 = j by omega]

/-- READV's opcode field. -/
theorem Sys2Proof.Laws.OpcodeField.readv (addr : VAddr) :
    Sys2Proof.Laws.OpcodeField.Statement (.readv addr) := by
  refine BitVec.eq_of_getLsbD_eq fun j hj => (Sys2Proof.Laws.fieldOp_getLsbD _ j hj).trans ?_
  show (0x2#4 ++ 0#13 ++ addr ++ 0#8 : BitVec (4 + 13 + 7 + 8)).getLsbD (28 + j)
    = (0x2#4).getLsbD j
  rw [BitVec.getLsbD_append, if_neg (by omega),
    BitVec.getLsbD_append, if_neg (by omega),
    BitVec.getLsbD_append, if_neg (by omega),
    show 28 + j - 8 - 7 - 13 = j by omega]

/-- READMB's opcode field. -/
theorem Sys2Proof.Laws.OpcodeField.readmb (addr : VAddr) (n : BitVec 3) :
    Sys2Proof.Laws.OpcodeField.Statement (.readmb addr n) := by
  refine BitVec.eq_of_getLsbD_eq fun j hj => (Sys2Proof.Laws.fieldOp_getLsbD _ j hj).trans ?_
  show (0x3#4 ++ 0#1 ++ n ++ 0#9 ++ addr ++ 0#8 : BitVec (4 + 1 + 3 + 9 + 7 + 8)).getLsbD (28 + j)
    = (0x3#4).getLsbD j
  rw [BitVec.getLsbD_append, if_neg (by omega),
    BitVec.getLsbD_append, if_neg (by omega),
    BitVec.getLsbD_append, if_neg (by omega),
    BitVec.getLsbD_append, if_neg (by omega),
    BitVec.getLsbD_append, if_neg (by omega),
    show 28 + j - 8 - 7 - 9 - 3 - 1 = j by omega]

/-- INIT's opcode field. -/
theorem Sys2Proof.Laws.OpcodeField.init : Sys2Proof.Laws.OpcodeField.Statement .init := rfl

/-- SETLED's opcode field. -/
theorem Sys2Proof.Laws.OpcodeField.setled (e : BitVec 1) (drv sns : BitVec 2) :
    Sys2Proof.Laws.OpcodeField.Statement (.setled e drv sns) := by
  refine BitVec.eq_of_getLsbD_eq fun j hj => (Sys2Proof.Laws.fieldOp_getLsbD _ j hj).trans ?_
  show (0x5#4 ++ 0#3 ++ e ++ 0#20 ++ drv ++ sns : BitVec (4 + 3 + 1 + 20 + 2 + 2)).getLsbD (28 + j)
    = (0x5#4).getLsbD j
  rw [BitVec.getLsbD_append, if_neg (by omega),
    BitVec.getLsbD_append, if_neg (by omega),
    BitVec.getLsbD_append, if_neg (by omega),
    BitVec.getLsbD_append, if_neg (by omega),
    BitVec.getLsbD_append, if_neg (by omega),
    show 28 + j - 2 - 2 - 20 - 1 - 3 = j by omega]

/-- STARTMEAS's opcode field. -/
theorem Sys2Proof.Laws.OpcodeField.startmeas : Sys2Proof.Laws.OpcodeField.Statement .startmeas := rfl
end

