-- ==== Sys2Proof/Laws/Step.lean ====
section
/-! SUPPORT. What one step of the machine can do: the inversion lemma every whole-machine statement goes through. -/

namespace Sys2Proof.Machine

/-- The state a step's command or engine sees: one act taken off the list, the host gone on, OVERRUN perhaps set. -/
def seenBy (s : State) (h : HostSession) (ov : Bool) : State := { s.dropAct with host := h, overrun := ov }

/-- The session registers of two host sessions agree (R251). -/
def sameSession (h k : HostSession) : Prop := h.lastLux = k.lastLux ∧ h.lastCct = k.lastCct

/-- Everything a step that answers a next state can have done. -/
inductive StepCase (s t : State) : Prop
  | reset : s.nextAct = .reset → t = s.dropAct.blockReset → StepCase s t
  | waited (h) : s.nextAct ≠ .reset → s.phase = .idle → sameSession h s.host →
      t = seenBy s h s.overrun → StepCase s t
  | received (k) : s.nextAct = .wait → s.phase = .idle → s.host.pos = .await k → s.rsp.valid = true →
      t = seenBy s (s.host.receive s.cfg k s.rsp) s.overrun → StepCase s t
  | refused (h c) : s.nextAct ≠ .reset → s.phase = .idle → sameSession h s.host →
      t = (seenBy s h s.overrun).illegal c → StepCase s t
  | ran (i h ov) : s.nextAct ≠ .reset → sameSession h s.host → (s.overrun = true → ov = true) →
      (s.phase = .idle → ov = s.overrun) →
      (s.phase = .run → s.cmd.op = (latchOf i).op) → exec i (seenBy s h ov) = .next t → StepCase s t

/-- The latch and its command have one opcode. -/
theorem instrOf_op {l : Latch} {i : Instr} (h : instrOf l = some i) : l.op = (latchOf i).op := by
  unfold instrOf at h
  split at h <;> cases h <;> exact BitVec.eq_of_toNat_eq ‹_›

/-- The engine on its own: idle, or one step of the latched command. -/
theorem engineStep_inv {u t : State} (h : engineStep u = .next t) :
    (u.phase = .idle ∧ t = u) ∨ (u.phase = .run ∧ ∃ i, u.cmd.op = (latchOf i).op ∧ exec i u = .next t) := by
  unfold engineStep at h
  split at h
  · next hp => exact .inl ⟨hp, by cases h; rfl⟩
  · next hp =>
    split at h
    · next i hi => exact .inr ⟨hp, i, instrOf_op hi, h⟩
    · cases h

/-- A word presented: refused by the decoder, run, or discarded while BUSY. -/
theorem presentWord_inv {w : Word} {u t : State} (h : presentWord w u = .next t) :
    (u.phase = .idle ∧ ((∃ c, t = u.illegal c) ∨ ∃ i, exec i u = .next t))
    ∨ (u.phase = .run ∧ ∃ i, u.cmd.op = (latchOf i).op ∧ exec i { u with overrun := true } = .next t) := by
  unfold presentWord at h
  split at h
  · next hp =>
    rcases engineStep_inv h with ⟨hi, _⟩ | ⟨_, i, ho, he⟩
    · exact absurd (hp.symm.trans hi) (by decide)
    · exact .inr ⟨hp, i, ho, he⟩
  · next hp =>
    refine .inl ⟨hp, ?_⟩
    split at h
    · exact .inr ⟨_, h⟩
    · exact .inl ⟨_, by cases h; rfl⟩

/-- A step in which nothing comes from outside. -/
theorem hostStep_inv {s t : State} (k : HostSession) (hk : sameSession k s.host) (hn : s.nextAct ≠ .reset)
    (hp : s.nextAct = .wait → k = s.host)
    (hm : s.nextAct ≠ .wait → ∃ c, k.pos = .issue c)
    (h : hostStep (seenBy s k s.overrun) = .next t) : StepCase s t := by
  have engine : ∀ {u}, u = seenBy s k s.overrun → engineStep u = .next t → StepCase s t := by
    rintro u rfl he
    rcases engineStep_inv he with ⟨hi, ht⟩ | ⟨hr, i, ho, he⟩
    · exact .waited k hn hi hk ht
    · exact .ran i k s.overrun hn hk id (fun _ => rfl) (fun _ => ho) he
  unfold hostStep at h
  split at h
  · exact engine rfl h
  · split at h
    · exact engine rfl h
    · next c hc hb =>
      have hi : s.phase = .idle := by
        simp only [State.busy, seenBy, dropAct_phase] at hb
        cases hq : s.phase <;> simp_all
      rcases presentWord_inv h with ⟨_, ⟨d, hd⟩ | ⟨i, hi'⟩⟩ | ⟨hr, _⟩
      · exact .refused { k with pos := .await c } d hn hi hk hd
      · exact .ran i { k with pos := .await c } s.overrun hn hk id (fun _ => rfl) (fun hr => by simp_all) hi'
      · simp_all [seenBy]
  · split at h
    · next c hc hb =>
      have hw : s.nextAct = .wait := by
        by_contra hw
        obtain ⟨d, hd⟩ := hm hw
        simp_all [seenBy]
      have hks := hp hw
      subst hks
      simp only [Bool.and_eq_true, Bool.not_eq_true', State.busy, seenBy, dropAct_phase, dropAct_rsp] at hb
      have hi : s.phase = .idle := by cases hq : s.phase <;> simp_all
      cases h
      exact .received c hw hi hc hb.2 rfl
    · exact engine rfl h

/-- Every step that answers a next state did one of these. -/
theorem step_cases {s t : State} (h : step s = .next t) : StepCase s t := by
  simp only [step, machineStep] at h
  have hd : s.dropAct = seenBy s s.host s.overrun := rfl
  cases ha : s.nextAct with
  | wait =>
    rw [ha, hd] at h
    exact hostStep_inv s.host ⟨rfl, rfl⟩ (by rw [ha]; decide) (fun _ => rfl) (fun hn => absurd ha hn) h
  | present w =>
    have hn : s.nextAct ≠ .reset := by rw [ha]; simp
    rw [ha, hd] at h
    rcases presentWord_inv h with ⟨hi, ⟨d, hd⟩ | ⟨i, he⟩⟩ | ⟨hr, i, ho, he⟩
    · exact .refused s.host d hn hi ⟨rfl, rfl⟩ hd
    · exact .ran i s.host s.overrun hn ⟨rfl, rfl⟩ id (fun _ => rfl)
        (fun hr => absurd (hr.symm.trans hi) (by decide)) he
    · exact .ran i s.host true hn ⟨rfl, rfl⟩ (fun _ => rfl)
        (fun hi => absurd (hr.symm.trans hi) (by decide)) (fun _ => ho) he
  | mread =>
    have hn : s.nextAct ≠ .reset := by rw [ha]; decide
    rw [ha] at h
    simp only [actStep] at h
    split at h
    · exact hostStep_inv s.host.call ⟨rfl, rfl⟩ hn (fun hw => by rw [ha] at hw; cases hw)
        (fun _ => ⟨.ctrl, rfl⟩) h
    · cases h
  | reset =>
    rw [ha] at h
    cases h
    exact .reset ha rfl

end Sys2Proof.Machine
end

