-- ==== Sys2Proof/Laws/Run.lean ====
section
/-! SUPPORT. Runs of several steps: how one unfolds, how two compose. -/

namespace Sys2Proof.Machine

/-- No step. -/
theorem runSteps_zero (s : State) : runSteps 0 s = .next s := rfl

/-- A run whose first step goes on. -/
theorem runSteps_next {s t : State} (k : Nat) (h : step s = .next t) : runSteps (k + 1) s = runSteps k t := by
  have hc : core.step s = .next t := h
  simp only [runSteps, Host.Core.run]
  rw [hc]

/-- What the first step of a run that goes on answered. -/
theorem runSteps_succ_inv {s t : State} {k : Nat} (h : runSteps (k + 1) s = .next t) :
    ∃ u, step s = .next u ∧ runSteps k u = .next t := by
  cases hs : step s with
  | next u => exact ⟨u, rfl, (runSteps_next k hs).symm.trans h⟩
  | fault r =>
    have hc : core.step s = .fault r := hs
    simp only [runSteps, Host.Core.run] at h
    rw [hc] at h
    cases h
  | refused r =>
    have hc : core.step s = .refused r := hs
    simp only [runSteps, Host.Core.run] at h
    rw [hc] at h
    cases h

/-- Two runs, one after the other. -/
theorem runSteps_add {s t : State} (j k : Nat) (h : runSteps j s = .next t) :
    runSteps (j + k) s = runSteps k t := by
  induction j generalizing s with
  | zero =>
    cases h
    rw [Nat.zero_add]
  | succ j ih =>
    obtain ⟨u, hu, hr⟩ := runSteps_succ_inv h
    rw [Nat.add_right_comm, runSteps_next _ hu]
    exact ih hr

end Sys2Proof.Machine
end

