-- ==== Sys2Proof/Tests/Slice0.lean ====
section
/-! SUPPORT. The model's own tests: the value checks refuse an ill-formed command for each of them, words written out bit
by bit from spec 30_encoding.md R112, single steps of spec/95_test_vectors.md, and for every obligation with hypotheses a
concrete state and operands that meet them together (`witness_…`). -/

namespace Sys2Proof.Tests

open Sys2Proof.Machine

/-! ### Small states -/

/-- IDLE and READY after an INIT that ended OK (V-IN-1). -/
def readyState : State := { State.reset with initDone := true, ctrlShadow := 0x28 }

/-- A command `i` in RUN at an access and a step, with the transport's answers to come. -/
def runningState (i : Instr) (sub : BitVec 2) (step : BitVec 3) (tape : List Answer) : State :=
  { State.reset with phase := .run, cmd := latchOf i, sub := sub, step := step, tape := tape }

/-- The host presents a word to a state. -/
def presentedTo (s : State) (w : Word) : State := { s with inputs := [.present w] }

/-- One answer a POLL, the condition at once. -/
def quick (b : Byte) : PollAnswers := { missed := [], hit := b }

/-- The answers of V-WV-1. -/
def quickWrite : WriteAnswers := { poll1 := quick 0, ack2 := 0, poll3 := quick 2, ack4 := 0, poll5 := quick 0 }

/-- A write whose first POLL reads three times: a failure and a busy chip come first. -/
def slowWrite : WriteAnswers := { quickWrite with poll1 := { missed := [.fail 7, .ok 2], hit := 0 } }

/-- The answers of V-RV-1. -/
def quickRead (b : Byte) : ReadAnswers := { poll1 := quick 0, ack2 := 0, poll3 := quick 1, data := b }

/-- STARTMEAS in READY about to write its data byte: three transactions of V-SM-1 are done, the fourth is answered. -/
def measuringState : State :=
  { runningState .startmeas 0 4 [.ok 0] with
    initDone := true
    ctrlShadow := 0x28
    pend := 0x2C
    trace := [.rdOk 0x49 0 2, .wrOk 0x49 1 0x84, .rdOk 0x49 0 0] }

/-- MREAD about to present its second command, READMB VREG_LUX, 2, where VREG_LUX is 0x7F. -/
def luxOffEnd : State :=
  { readyState with
    cfg := { Params.reference with vregLux := 0x7F }
    host := { HostSession.start with pos := .issue .lux } }

/-- The step that answers `t`, as a question that can be decided: did it go on, and does `t` pass the check? -/
def stepsTo (s : State) (check : State → Bool) : Bool :=
  match step s with
  | .next t => check t
  | .fault _ => false
  | .refused _ => false

/-! ### Value checks on operands (R118) -/

/-- COUNT: 0 bytes. -/
theorem test_readmb_count_zero_ill_formed : (Instr.readmb 0x10 0).wellFormed = false := by decide

/-- COUNT: 5 bytes. -/
theorem test_readmb_count_five_ill_formed : (Instr.readmb 0x10 5).wellFormed = false := by decide

/-- ADDR: the last byte would lie at 0x80 (V-MB-9), and the last that fits (V-MB-4). -/
theorem test_readmb_addr_ill_formed :
    (Instr.readmb 0x7D 4).wellFormed = false ∧ (Instr.readmb 0x7C 4).wellFormed = true := by decide

/-- A configuration with one bit for both STATUS flags, or with a measurement register that does not fit, is ill-formed
(R12, R252). -/
theorem test_bad_configurations :
    ({ Params.reference with rxBit := 1 } : Params).wf = false
    ∧ ({ Params.reference with vregLux := 0x7F } : Params).wf = false ∧ Params.reference.wf = true := by decide

/-- POLL_BUDGET of REF, and its least and greatest values (R11). -/
theorem test_poll_budget_range :
    Params.reference.pollBudget = 1000
    ∧ ({ Params.reference with budgetLessOne := 0 } : Params).pollBudget = 1
    ∧ ({ Params.reference with budgetLessOne := 65534 } : Params).pollBudget = 65535 := by decide

/-! ### Words written out bit by bit (R112): op, then the format's other fields -/

/-- WRITEV 0x05, 0xFF: 0001 | 000 0 0 00000000 | 0 0000101 | 11111111. -/
theorem test_word_writev : decode 0b00010000000000000000010111111111#32 = .ok (.writev 0x05 0xFF) := by decide

/-- READV 0x04: 0010 | zeros | 0 0000100 | 00000000. -/
theorem test_word_readv : decode 0b00100000000000000000010000000000#32 = .ok (.readv 0x04) := by decide

/-- READMB 0x3C, 2: 0011 | 0 010 | 00000000 | 0 0111100 | 00000000. -/
theorem test_word_readmb : decode 0b00110010000000000011110000000000#32 = .ok (.readmb 0x3C 2) := by decide

/-- INIT: 0100 | zeros. -/
theorem test_word_init : decode 0b01000000000000000000000000000000#32 = .ok .init := by decide

/-- SETLED 1, 2, 2: 0101 | 000 1 | zeros | 10 | 10. -/
theorem test_word_setled : decode 0b01010001000000000000000000001010#32 = .ok (.setled 1 2 2) := by decide

/-- STARTMEAS: 0110 | zeros. -/
theorem test_word_startmeas : decode 0b01100000000000000000000000000000#32 = .ok .startmeas := by decide

/-- Words of spec/95_test_vectors.md 2.8 that no row matches. -/
theorem test_reserved_words :
    decode 0x00000000 = .error .rsvdOp ∧ decode 0x70000000 = .error .rsvdOp ∧ decode 0xFFFFFFFF = .error .rsvdOp
    ∧ decode 0x10010000 = .error .rsvdBits ∧ decode 0x11000000 = .error .rsvdBits
    ∧ decode 0x10008400 = .error .rsvdBits ∧ decode 0x20000401 = .error .rsvdBits
    ∧ decode 0x38001000 = .error .rsvdBits ∧ decode 0x40000001 = .error .rsvdBits
    ∧ decode 0x50000010 = .error .rsvdBits ∧ decode 0x52000000 = .error .rsvdBits
    ∧ decode 0x60000001 = .error .rsvdBits := by decide

/-- RSVD_BITS before COUNT (V-MB-11), COUNT before ADDR (V-MB-10), RSVD_BITS before NOINIT (V-SM-5). -/
theorem test_cause_order :
    classify Params.reference false 0x3000FF00 = .error .rsvdBits
    ∧ classify Params.reference false 0x35007F00 = .error .count
    ∧ classify Params.reference false 0x60000001 = .error .rsvdBits
    ∧ classify Params.reference false 0x60000000 = .error .noinit := by decide

/-- The word placed for the next step is what the decoder reads. -/
theorem test_decodeTableWord : decodeTableWord 32 0x34001400 = some (.readmb 0x14 4)
    ∧ decodeTableWord 32 0x34001401 = none := by decide

/-- A word placed at the command port after reset runs in the next step. -/
theorem test_withFetchWord :
    stepsTo (State.reset.withFetchWord 32 0x20000400) (fun t =>
      t.phase == .run && t.cmd == latchOf (.readv 0x04) && t.inputs == []) = true := by decide

/-! ### One step of each command -/

/-- V-WV-4: the failed address write ends WRITEV, STALLED(TRANSPORT, 2, 0, 0x01). -/
theorem test_writev_failed_address_write :
    stepsTo (runningState (.writev 0x05 0xFF) 0 2 [.fail 1]) (fun t =>
      t.rsp.status == 1 && t.rsp.cause == 1 && t.rsp.step == 2 && t.rsp.xerr == 1 && t.phase == .idle
      && t.trace == [.wrFail 0x49 1 0x85 1]) = true := by decide

/-- V-WV-3: the address byte of 0x7F is 0xFF. -/
theorem test_writev_address_byte :
    stepsTo (runningState (.writev 0x7F 0x01) 0 2 [.ok 0]) (fun t =>
      t.step == 3 && t.trace == [.wrOk 0x49 1 0xFF]) = true := by decide

/-- V-RV-1: READ gives 0x2E, OK 0x0000002E. -/
theorem test_readv_value :
    stepsTo (runningState (.readv 0x04) 0 4 [.ok 0x2E]) (fun t =>
      t.rsp.status == 0 && t.rsp.valid && t.rsp.value == 0x2E && t.trace == [.rdOk 0x49 2 0x2E]) = true := by decide

/-- V-RV-1: the address byte of a read has the flag clear. -/
theorem test_readv_address_byte :
    stepsTo (runningState (.readv 0x04) 0 2 [.ok 0]) (fun t => t.trace == [.wrOk 0x49 1 0x04]) = true := by decide

/-- V-MB-1: the second byte, 0x02 after 0x01, makes 0x00000102. -/
theorem test_readmb_second_byte :
    stepsTo { runningState (.readmb 0x3C 2) 1 4 [.ok 2] with acc := 1 } (fun t =>
      t.rsp.status == 0 && t.rsp.value == 0x102 && t.acc == 0x102) = true := by decide

/-- V-MB-6: the failed READ of the third byte, STALLED(TRANSPORT, 4, 2, 0x01). -/
theorem test_readmb_failed_read :
    stepsTo (runningState (.readmb 0x14 4) 2 4 [.fail 1]) (fun t =>
      t.rsp.status == 1 && t.rsp.cause == 1 && t.rsp.step == 4 && t.rsp.sub == 2 && t.rsp.xerr == 1) = true := by
  decide

/-- V-IN-1: the reset word is followed by 0x28 in the second access. -/
theorem test_init_second_access :
    stepsTo { runningState .init 0 5 [.ok 0] with pend := 0x80 } (fun t =>
      t.phase == .run && t.sub == 1 && t.step == 1 && t.pend == 0x28) = true := by decide

/-- V-IN-1: the end of INIT, ESTAT 0x280A. -/
theorem test_init_end :
    stepsTo { runningState .init 1 5 [.ok 0] with pend := 0x28 } (fun t => t.estat == 0x280A) = true := by decide

/-- V-SL-1: the LED byte of SETLED 1, 2, 2 is 0x2D. -/
theorem test_setled_byte :
    stepsTo (runningState (.setled 1 2 2) 0 4 [.ok 0]) (fun t => t.trace == [.wrOk 0x49 1 0x2D]) = true := by decide

/-- V-SL-3: the levels are ignored when e = 0. -/
theorem test_setled_off :
    stepsTo (runningState (.setled 0 3 3) 0 4 [.ok 0]) (fun t => t.trace == [.wrOk 0x49 1 0x00]) = true := by decide

/-- V-SM-1: the byte STARTMEAS writes after INIT is 0x2C. -/
theorem test_startmeas_byte :
    stepsTo measuringState (fun t => t.step == 5 && t.trace.head? == some (.wrOk 0x49 1 0x2C)) = true := by decide

/-- V-SM-4: with INT 1, GAIN 3, MODE 0 in the shadow (0x70) the byte is 0x7C. -/
theorem test_startmeas_keeps_int_and_gain : triggerByte Params.reference 0x70 = 0x7C := by decide

/-! ### The other steps -/

/-- V-OV-1: a word presented while INIT runs sets OVERRUN; INIT's transaction goes on. -/
theorem test_overrun :
    stepsTo { runningState .init 0 4 [.ok 0] with pend := 0x80, inputs := [.present 0x20000400] } (fun t =>
      t.overrun && t.faulted && t.step == 5 && t.trace == [.wrOk 0x49 1 0x80]) = true := by decide

/-- V-ES-1, V-ES-2: ESTAT after block reset and while INIT runs. -/
theorem test_estat : State.reset.estat = 0 ∧ (runningState .init 0 1 []).estat = 1 := by decide

/-- POLL_BUDGET = 1: one STATUS read without the flag is TIMEOUT (V-POLL-7, step 3). -/
theorem test_poll_budget_one :
    stepsTo { runningState (.writev 0x05 0xFF) 0 3 [.ok 0] with
        cfg := { Params.reference with budgetLessOne := 0 } } (fun t =>
      t.rsp.status == 1 && t.rsp.cause == 0 && t.rsp.step == 3 && t.rsp.xerr == 0) = true := by decide

/-- R256, D44: with VREG_LUX = 0x7F, which breaks R252, MREAD's second command is refused with ADDR, and MREAD returns
STALLED. -/
theorem test_mread_illegal_is_stalled :
    stepsTo luxOffEnd (fun t => t.rsp.status == 3 && t.rsp.cause == 2 && t.trace == []
      && stepsTo t (fun u => u.host.pos == .off && u.host.result == some .stalled)) = true := by decide

/-- R256: block commands run under that configuration too. -/
theorem test_block_runs_beside_a_bad_span :
    stepsTo { luxOffEnd with host := HostSession.start, inputs := [.present 0x20000400] } (fun t =>
      t.phase == .run && t.cmd == latchOf (.readv 0x04)) = true := by decide

/-- R253: a call of MREAD after reset presents READV VREG_CTRL. -/
theorem test_mread_call :
    stepsTo { State.reset with inputs := [.mread] } (fun t =>
      t.phase == .run && t.cmd == latchOf (.readv 0x04) && t.host.pos == .await .ctrl) = true := by decide

/-- V-MR-1: DRDY = 0 in 0x2C, NOT_READY. -/
theorem test_mread_not_ready :
    stepsTo { readyState with
        rsp := { State.reset.rsp with valid := true, value := 0x2C }
        host := { State.reset.host with pos := .await .ctrl } } (fun t =>
      t.host.pos == .off && t.host.result == some .notReady) = true := by decide

/-- A second MREAD call while one runs stops the machine. -/
theorem test_mread_reentered :
    step { State.reset with inputs := [.mread], host := { State.reset.host with pos := .issue .ctrl } }
      = .fault .mreadReentered := by rfl

/-- RC: its answer to a STATUS read after an address byte, and the byte it stages (R97, R100). -/
theorem test_chip_stages_a_byte :
    ((({ RefChip.initial with vreg := [(4, 0x2E)] } : RefChip).transact Params.reference (.wr 1 0x04)).2.transact
      Params.reference (.rd 0)).1 = .ok 1 := by decide

/-- RC: the reset word clears every virtual register (R102). -/
theorem test_chip_reset :
    (({ RefChip.initial with vreg := [(7, 0x55)] } : RefChip).vwrite Params.reference 0x04 0x80).vreg = [] := by
  decide

/-! ### Assembler text (R121 to R123) -/

/-- A pseudo-instruction with symbolic names and a comment (R122, R123). -/
theorem test_assemble_ledon :
    parseLine ['L', 'E', 'D', 'O', 'N', ' ', 'D', 'R', 'I', 'V', 'E', '_', '5', '0', 'm', 'A', ',', ' ', 'S', 'E',
      'N', 'S', 'E', '_', '4', 'm', 'A', ' ', ';', 'x'] = .command (.setled 1 2 2) := by decide

/-- Two lines of text give two words; READ16 is READMB with count 2. -/
theorem test_assemble_text :
    assembleText ['I', 'N', 'I', 'T', '\n', 'R', 'E', 'A', 'D', '1', '6', ' ', '0', 'x', '3', 'C']
      = some [0x40000000, 0x32003C00] := by decide

/-- An address above 0x7F is rejected (R121). -/
theorem test_assemble_rejects :
    parseLine ['R', 'E', 'A', 'D', 'V', ' ', '0', 'x', '8', '4'] = .rejected := by decide

/-! ### Witnesses: the hypotheses of each obligation can be met -/

/-- A word that decodes. -/
theorem witness_EncodeOfDecodeIsTheWord :
    decode 0x34001400 = .ok (.readmb 0x14 4) := by decide

/-- Both ends of the reserved opcodes. -/
theorem witness_ReservedOpcodeIsRefused :
    (presentedTo State.reset 0x0FFFFFFF).phase = .idle
    ∧ (presentedTo State.reset 0x0FFFFFFF).inputs = .present 0x0FFFFFFF :: []
    ∧ (0x0FFFFFFF#32).toNat / 2 ^ 28 = 0 ∧ 7 ≤ (0x70000000#32).toNat / 2 ^ 28 ∧ 7 ≤ (0xFFFFFFFF#32).toNat / 2 ^ 28 := by decide

/-- Bit 15 of a WRITEV, and bit 0 of a STARTMEAS. -/
theorem witness_ReservedBitIsRefused :
    (presentedTo State.reset 0x10008000).phase = .idle
    ∧ (presentedTo State.reset 0x10008000).inputs = .present 0x10008000 :: []
    ∧ (0x10008000#32).toNat / 2 ^ 28 = 1 ∧ 0x10008000#32 &&& ~~~(usedBits ((0x10008000#32).toNat / 2 ^ 28)) ≠ 0
    ∧ (0x60000001#32).toNat / 2 ^ 28 = 6 ∧ 0x60000001#32 &&& ~~~(usedBits ((0x60000001#32).toNat / 2 ^ 28)) ≠ 0 := by decide

/-- INIT at the command port after reset. -/
theorem witness_StepRunsThePresentedCommand :
    (presentedTo State.reset 0x40000000).phase = .idle
    ∧ (presentedTo State.reset 0x40000000).inputs = .present 0x40000000 :: [] ∧ decode 0x40000000 = .ok .init := by decide

/-- A running READV and the reset state, both alone. -/
theorem witness_EngineOnItsOwnRunsTheLatchedCommand :
    (runningState (.readv 4) 0 1 []).phase = .run
    ∧ (runningState (.readv 4) 0 1 []).alone ∧ (runningState (.readv 4) 0 1 []).cmd = latchOf (.readv 4)
    ∧ State.reset.phase = .idle ∧ State.reset.alone := by
  exact ⟨rfl, ⟨rfl, rfl⟩, rfl, rfl, ⟨rfl, rfl⟩⟩

/-- A word presented while READV runs, the step that takes nothing instead, and a step with OVERRUN already set. -/
theorem witness_WordPresentedWhileBusyOverruns :
    let s := presentedTo (runningState (.readv 4) 0 1 [.ok 0, .ok 0]) 0x40000000
    ∃ t u v : State, s.phase = .run ∧ s.inputs = .present 0x40000000 :: []
      ∧ step { s with inputs := .wait :: [] } = .next u ∧ u.overrun = false ∧ step s = .next t
      ∧ t.overrun = true ∧ t.nextAct ≠ .reset ∧ step t = .next v := ⟨_, _, _, rfl, rfl, rfl, rfl, rfl, rfl, by decide, rfl⟩

/-- A word refused with NOINIT and a word accepted, each at the port of an IDLE engine. -/
theorem witness_FirstFailingCheckIsTheCause :
    (presentedTo State.reset 0x60000000).phase = .idle
    ∧ (presentedTo State.reset 0x60000000).inputs = .present 0x60000000 :: []
    ∧ classify State.reset.cfg State.reset.initDone 0x60000000 = .error .noinit
    ∧ (presentedTo readyState 0x60000000).phase = .idle
    ∧ (presentedTo readyState 0x60000000).inputs = .present 0x60000000 :: []
    ∧ classify readyState.cfg readyState.initDone 0x60000000 = .ok .startmeas := by decide

/-- Reset while STARTMEAS runs. -/
theorem witness_BlockResetClearsTheBlock :
    ({ measuringState with inputs := [.reset] } : State).inputs = .reset :: [] ∧ measuringState.phase = .run := by decide

/-- An unprotected address. -/
theorem witness_WritevIsAccepted :
    State.reset.phase = .idle ∧ (5 : VAddr) ≠ State.reset.cfg.vregCtrl ∧ (5 : VAddr) ≠ State.reset.cfg.vregLed := by decide

/-- Both protected addresses. -/
theorem witness_ControllerRegistersAreWriteProtected :
    State.reset.phase = .idle ∧ (0x04 : VAddr) = State.reset.cfg.vregCtrl ∧ (0x07 : VAddr) = State.reset.cfg.vregLed := by decide

/-- IDLE. -/
theorem witness_ReadvIsAccepted :
    State.reset.phase = .idle := by decide

/-- One byte and four bytes at the top of the address space. -/
theorem witness_ReadmbIsAccepted :
    State.reset.phase = .idle ∧ 1 ≤ (1#3).toNat ∧ (1#3).toNat ≤ 4 ∧ (0x7F#7).toNat + (1#3).toNat - 1 ≤ 0x7F
    ∧ (4#3).toNat ≤ 4 ∧ (0x7C#7).toNat + (4#3).toNat - 1 ≤ 0x7F := by decide

/-- Each clause at its boundary: counts 0 and 5, the first address that does not fit, the last that does. -/
theorem witness_ReadmbRangeIsChecked :
    State.reset.phase = .idle ∧ (0#3).toNat = 0 ∧ 5 ≤ (5#3).toNat ∧ 0x7F < (0x7D#7).toNat + (4#3).toNat - 1
    ∧ (0x7C#7).toNat + (4#3).toNat - 1 ≤ 0x7F ∧ (3#2).toNat < (4#3).toNat := by decide

/-- IDLE, in both states of the controller. -/
theorem witness_InitIsAccepted :
    State.reset.phase = .idle ∧ readyState.phase = .idle ∧ readyState.initDone = true := by decide

/-- IDLE, in both states of the controller. -/
theorem witness_SetledIsAccepted :
    State.reset.phase = .idle ∧ readyState.phase = .idle := by decide

/-- Both states of the controller. -/
theorem witness_StartmeasNeedsInit :
    readyState.phase = .idle ∧ readyState.initDone = true ∧ State.reset.phase = .idle ∧ State.reset.initDone = false := by decide

/-- The state before the last transaction. -/
theorem witness_WritevEndsOk :
    (runningState (.writev 5 255) 0 5 [.ok 0]).phase = .run ∧ (runningState (.writev 5 255) 0 5 [.ok 0]).cmd = latchOf (.writev 5 255)
    ∧ (runningState (.writev 5 255) 0 5 [.ok 0]).sub = 0 ∧ (runningState (.writev 5 255) 0 5 [.ok 0]).step = 5
    ∧ (runningState (.writev 5 255) 0 5 [.ok 0]).tape = .ok 0 :: []
    ∧ (0#8).getLsbD State.reset.cfg.txBit.val = false := by decide

/-- The state before the last transaction. -/
theorem witness_ReadvEndsOkWithTheByte :
    (runningState (.readv 4) 0 4 [.ok 46]).phase = .run ∧ (runningState (.readv 4) 0 4 [.ok 46]).cmd = latchOf (.readv 4)
    ∧ (runningState (.readv 4) 0 4 [.ok 46]).sub = 0 ∧ (runningState (.readv 4) 0 4 [.ok 46]).step = 4
    ∧ (runningState (.readv 4) 0 4 [.ok 46]).tape = .ok 46 :: [] := by decide

/-- The last byte of two, and the first. -/
theorem witness_ReadmbByteIsAssembled :
    (runningState (.readmb 0x3C 2) 1 4 [.ok 2]).cmd = latchOf (.readmb 0x3C 2)
    ∧ (runningState (.readmb 0x3C 2) 1 4 [.ok 2]).tape = .ok 2 :: []
    ∧ (runningState (.readmb 0x3C 2) 1 4 [.ok 2]).phase = .run ∧ (runningState (.readmb 0x3C 2) 1 4 [.ok 2]).step = 4
    ∧ (1#2).toNat + 1 = (2#3).toNat ∧ (0#2).toNat + 1 < (2#3).toNat := by decide

/-- The end of each of INIT's two writes. -/
theorem witness_InitEndsOk :
    (runningState .init 0 5 [.ok 0]).phase = .run ∧ (runningState .init 0 5 [.ok 0]).cmd = latchOf .init
    ∧ (runningState .init 0 5 [.ok 0]).sub = 0 ∧ (runningState .init 0 5 [.ok 0]).step = 5
    ∧ (runningState .init 1 5 [.ok 0]).sub = 1 ∧ (runningState .init 1 5 [.ok 0]).tape = .ok 0 :: []
    ∧ (0#8).getLsbD State.reset.cfg.txBit.val = false := by decide

/-- The state before the last transaction. -/
theorem witness_SetledEndsOk :
    (runningState (.setled 1 2 2) 0 5 [.ok 0]).phase = .run ∧ (runningState (.setled 1 2 2) 0 5 [.ok 0]).cmd = latchOf (.setled 1 2 2)
    ∧ (runningState (.setled 1 2 2) 0 5 [.ok 0]).sub = 0 ∧ (runningState (.setled 1 2 2) 0 5 [.ok 0]).step = 5
    ∧ (runningState (.setled 1 2 2) 0 5 [.ok 0]).tape = .ok 0 :: []
    ∧ (0#8).getLsbD State.reset.cfg.txBit.val = false := by decide

/-- The state before the last transaction. -/
theorem witness_StartmeasEndsOk :
    (runningState .startmeas 0 5 [.ok 0]).phase = .run ∧ (runningState .startmeas 0 5 [.ok 0]).cmd = latchOf .startmeas
    ∧ (runningState .startmeas 0 5 [.ok 0]).sub = 0 ∧ (runningState .startmeas 0 5 [.ok 0]).step = 5
    ∧ (runningState .startmeas 0 5 [.ok 0]).tape = .ok 0 :: []
    ∧ (0#8).getLsbD State.reset.cfg.txBit.val = false := by decide

/-- The command at the port of an IDLE engine, with answers that let every POLL succeed. -/
theorem witness_WritevRunsToOk :
    let s : State := { presentedTo State.reset (encode (.writev 5 255)) with tape := slowWrite.answers ++ [] }
    s.phase = .idle ∧ s.host.pos = .off ∧ s.inputs = [.present (encode (.writev 5 255))]
    ∧ slowWrite.good s.cfg = true ∧ s.tape = slowWrite.answers ++ [] ∧ 5#7 ≠ s.cfg.vregCtrl ∧ 5#7 ≠ s.cfg.vregLed := by decide

/-- The command at the port of an IDLE engine, with answers that let every POLL succeed. -/
theorem witness_ReadvRunsToOk :
    let s : State := { presentedTo State.reset (encode (.readv 4)) with tape := (quickRead 46).answers ++ [] }
    s.phase = .idle ∧ s.host.pos = .off ∧ s.inputs = [.present (encode (.readv 4))]
    ∧ (quickRead 46).good s.cfg = true ∧ s.tape = (quickRead 46).answers ++ [] := by decide

/-- The command at the port of an IDLE engine, with answers that let every POLL succeed. -/
theorem witness_ReadmbAssemblesMostSignificantFirst :
    let s : State := { presentedTo State.reset (encode (.readmb 0x7E 2)) with tape := [quickRead 1, quickRead 2].flatMap ReadAnswers.answers ++ [] }
    s.phase = .idle ∧ s.host.pos = .off ∧ s.inputs = [.present (encode (.readmb 0x7E 2))]
    ∧ [quickRead 1, quickRead 2].all (fun h => h.good s.cfg) = true
    ∧ s.tape = [quickRead 1, quickRead 2].flatMap ReadAnswers.answers ++ [] ∧ [quickRead 1, quickRead 2].length = (2#3).toNat
    ∧ (0x7E#7).toNat + (2#3).toNat - 1 ≤ 0x7F ∧ (0xFFFFFF#32).toNat < 2 ^ (8 * 3) := by decide

/-- The command at the port of an IDLE engine, with answers that let every POLL succeed. -/
theorem witness_InitRunsToOk :
    let s : State := { presentedTo readyState (encode .init) with tape := slowWrite.answers ++ (quickWrite.answers ++ []) }
    s.phase = .idle ∧ s.host.pos = .off ∧ s.inputs = [.present (encode .init)]
    ∧ slowWrite.good s.cfg = true ∧ quickWrite.good s.cfg = true
    ∧ s.tape = slowWrite.answers ++ (quickWrite.answers ++ []) := by decide

/-- The command at the port of an IDLE engine, with answers that let every POLL succeed. -/
theorem witness_SetledRunsToOk :
    let s : State := { presentedTo State.reset (encode (.setled 1 2 2)) with tape := quickWrite.answers ++ [] }
    s.phase = .idle ∧ s.host.pos = .off ∧ s.inputs = [.present (encode (.setled 1 2 2))]
    ∧ quickWrite.good s.cfg = true ∧ s.tape = quickWrite.answers ++ [] := by decide

/-- The command at the port of an IDLE engine, with answers that let every POLL succeed. -/
theorem witness_StartmeasRunsToOk :
    let s : State := { presentedTo readyState (encode .startmeas) with tape := quickWrite.answers ++ [] }
    s.phase = .idle ∧ s.host.pos = .off ∧ s.inputs = [.present (encode .startmeas)]
    ∧ s.initDone = true ∧ quickWrite.good s.cfg = true ∧ s.tape = quickWrite.answers ++ [] := by decide

/-- A budget of one read a POLL, and answers enough for WRITEV. -/
theorem witness_EveryCommandEndsWithinItsBound :
    let s : State := { presentedTo State.reset (encode (.writev 5 255)) with
      cfg := { Params.reference with budgetLessOne := 0 }, tape := List.replicate 5 (.ok 2) }
    s.phase = .idle ∧ s.host.pos = .off ∧ s.inputs = [.present (encode (.writev 5 255))]
    ∧ maxTransactions s.cfg.pollBudget (.writev 5 255) ≤ s.tape.length ∧ Answer.silent ∉ s.tape := by decide

/-- V-POLL-2: three STATUS reads with TX_PENDING set. -/
theorem witness_PollTimesOutAfterExactlyItsBudget :
    let s : State := { runningState (.writev 5 255) 0 1 [.ok 2, .ok 2, .ok 2] with
      cfg := { Params.reference with budgetLessOne := 2 } }
    s.alone ∧ s.phase = .run ∧ s.cmd = latchOf (.writev 5 255)
    ∧ s.sub.toNat < accessCount (.writev 5 255) ∧ s.access = some (.write 5 255)
    ∧ (Access.write 5 255).polls s.step = some .txClear ∧ s.pcnt = 0
    ∧ [Answer.ok 2, .ok 2, .ok 2].all (Answer.misses s.cfg .txClear) = true
    ∧ [Answer.ok 2, .ok 2, .ok 2].length = s.cfg.pollBudget ∧ s.tape = [.ok 2, .ok 2, .ok 2] ++ [] := ⟨⟨rfl, rfl⟩, rfl, rfl, by decide, rfl, rfl, rfl, by decide, rfl, rfl⟩

/-- The address write of a WRITEV fails, and the READ of a READV. -/
theorem witness_FailedTransferEndsTheCommand :
    let s := runningState (.writev 5 255) 0 2 [.fail 255]
    let r := runningState (.readv 4) 0 4 [.fail 1]
    s.phase = .run ∧ s.cmd = latchOf (.writev 5 255) ∧ s.sub.toNat < accessCount (.writev 5 255)
    ∧ s.request = some (.wr 1 0x85) ∧ XReq.wr 1 0x85 ≠ .rd s.cfg.pregStatus ∧ s.tape = .fail 255 :: []
    ∧ 255 < 2 ^ s.cfg.xerrW
    ∧ r.phase = .run ∧ r.cmd = latchOf (.readv 4) ∧ r.sub.toNat < accessCount (.readv 4)
    ∧ r.request = some (.rd 2) ∧ XReq.rd 2 ≠ .rd r.cfg.pregStatus ∧ r.tape = .fail 1 :: [] ∧ 1 < 2 ^ r.cfg.xerrW := by decide

/-- A failed STATUS read under RETRY with budget left and with none, and under ABORT. -/
theorem witness_FailedStatusReadRetriesOrAborts :
    let s := runningState (.writev 5 255) 0 1 [.fail 1]
    s.phase = .run ∧ s.cmd = latchOf (.writev 5 255) ∧ s.sub.toNat < accessCount (.writev 5 255)
    ∧ s.access = some (.write 5 255) ∧ (Access.write 5 255).polls s.step = some .txClear ∧ s.tape = .fail 1 :: []
    ∧ 1 < 2 ^ s.cfg.xerrW ∧ s.cfg.pollXfail = .retry ∧ (s.pcnt + 1).toNat < s.cfg.pollBudget
    ∧ 1000 ≤ (999#16 + 1).toNat ∧ s.cfg.pollBudget = 1000
    ∧ ({ s.cfg with pollXfail := .abort } : Params).pollXfail = .abort := by decide

/-- A transport that does not answer a STATUS read. -/
theorem witness_SilentTransportBlocksTheEngine :
    let s := runningState (.writev 5 255) 0 1 [.silent]
    s.phase = .run ∧ s.cmd = latchOf (.writev 5 255) ∧ s.sub.toNat < accessCount (.writev 5 255)
    ∧ s.request = some (.rd 0) ∧ s.tape = .silent :: [] := by decide

/-- An engine step that answers a next state, answered with a byte and with a failure. -/
theorem witness_EngineStepIssuesItsRequest :
    ∃ t u : State, exec (.writev 5 255) (runningState (.writev 5 255) 0 2 [.ok 0]) = .next t
      ∧ exec (.writev 5 255) (runningState (.writev 5 255) 0 2 [.fail 1]) = .next u
      ∧ (runningState (.writev 5 255) 0 2 [.ok 0]).request = some (.wr 1 0x85)
      ∧ (runningState (.writev 5 255) 0 2 [.ok 0]).sub.toNat < accessCount (.writev 5 255)
      ∧ 1 < 2 ^ State.reset.cfg.xerrW := ⟨_, _, rfl, rfl, by decide, by decide, by decide⟩

/-- A step that issues one. -/
theorem witness_StepIssuesAtMostOneTransaction :
    ∃ t, step measuringState = .next t := ⟨_, rfl⟩

/-- Both commands in RUN at their first STATUS read. -/
theorem witness_WritevAndReadvFrame :
    ∃ t u : State, exec (.writev 5 255) (runningState (.writev 5 255) 0 1 [.ok 0]) = .next t
      ∧ exec (.readv 4) (runningState (.readv 4) 0 4 [.ok 46]) = .next u := ⟨_, _, rfl, rfl⟩

/-- Both commands in RUN. -/
theorem witness_ReadmbAndSetledFrame :
    ∃ t u : State, exec (.readmb 0x3C 2) (runningState (.readmb 0x3C 2) 0 4 [.ok 1]) = .next t
      ∧ exec (.setled 1 2 2) (runningState (.setled 1 2 2) 0 4 [.ok 0]) = .next u := ⟨_, _, rfl, rfl⟩

/-- INIT at accept, STARTMEAS at its last read. -/
theorem witness_InitAndStartmeasFrame :
    ∃ t u : State, exec .init readyState = .next t
      ∧ exec .startmeas (runningState .startmeas 0 5 [.ok 0]) = .next u := ⟨_, _, rfl, rfl⟩

/-- The invariant holds of STARTMEAS in RUN, three transactions done. -/
theorem measuringState_inv : Inv measuringState where
  config := by decide
  running := fun _ => ⟨.startmeas, .write 0x04 0x2C, rfl, rfl, by decide, by decide, by decide⟩
  invalid := fun _ => rfl
  budget := by decide
  polling := fun _ acc h hp => by
    cases h
    exact absurd hp (by decide)
  initPend := fun _ h => absurd h (by decide)
  measPend := fun _ _ => by decide
  uninit := fun h => absurd h (by decide)
  ready := fun _ => ⟨2, .inl rfl, by decide⟩
  assembling := fun _ h => absurd h (by decide)
  response := .inl ⟨rfl, rfl, rfl, rfl, rfl⟩

/-- The invariant holds in IDLE and READY. -/
theorem readyState_inv : Inv readyState where
  config := by decide
  running := fun h => absurd h (by decide)
  invalid := fun h => absurd h (by decide)
  budget := by decide
  polling := fun h => absurd h (by decide)
  initPend := fun h => absurd h (by decide)
  measPend := fun h => absurd h (by decide)
  uninit := fun h => absurd h (by decide)
  ready := fun _ => ⟨2, .inl rfl, by decide⟩
  assembling := fun h => absurd h (by decide)
  response := .inl ⟨rfl, rfl, rfl, rfl, rfl⟩

/-- The invariant holds of INIT in RUN at its reset word. -/
theorem initState_inv : Inv { runningState .init 0 4 [.ok 0] with pend := 0x80 } where
  config := by decide
  running := fun _ => ⟨.init, .write 0x04 0x80, rfl, rfl, by decide, rfl, by decide⟩
  invalid := fun _ => rfl
  budget := by decide
  polling := fun _ acc h hp => by
    cases h
    exact absurd hp (by decide)
  initPend := fun _ _ => ⟨rfl, by decide⟩
  measPend := fun _ h => absurd h (by decide)
  uninit := fun _ => rfl
  ready := fun h => absurd h (by decide)
  assembling := fun _ h => absurd h (by decide)
  response := .inl ⟨rfl, rfl, rfl, rfl, rfl⟩

/-- The trace of `measuringState` is in order. -/
theorem measuringState_order : HandshakeOrder measuringState := by
  intro _ acc h
  cases h
  exact ⟨fun h => absurd h (by decide), fun h => absurd h (by decide),
    fun _ => ⟨_, _, rfl, ⟨rfl, rfl, by decide⟩, [], _, rfl, fun e he => absurd he List.not_mem_nil⟩,
    fun h => absurd h (by decide)⟩

/-- The running and the idle cases: STARTMEAS and INIT in RUN, INIT accepted, and READV accepted. -/
theorem witness_ControllerTransitions :
    ∃ t u v x y : State, Inv measuringState ∧ exec .startmeas measuringState = .next t
      ∧ Inv { runningState .init 0 4 [.ok 0] with pend := 0x80 }
      ∧ exec .init { runningState .init 0 4 [.ok 0] with pend := 0x80 } = .next u
      ∧ Inv readyState ∧ exec .init readyState = .next v ∧ exec .startmeas readyState = .next x
      ∧ exec (.readv 4) readyState = .next y := ⟨_, _, _, _, _, measuringState_inv, rfl, initState_inv, rfl, readyState_inv, rfl, rfl, rfl⟩

/-- STARTMEAS about to write its byte. -/
theorem witness_StartmeasPreservesGainAndInterruptEnable :
    Inv measuringState ∧ measuringState.phase = .run ∧ measuringState.cmd = latchOf .startmeas
    ∧ measuringState.step = 4 ∧ measuringState.request = some (.wr 1 0x2C) ∧ measuringState.initDone = true
    ∧ ∃ t, exec .startmeas measuringState = .next t := ⟨measuringState_inv, rfl, rfl, rfl, by decide, rfl, _, rfl⟩

/-- A well-formed layout, and an access to VREG_CTRL. -/
theorem witness_ControlByteHoldsItsFields :
    Params.reference.wf = true ∧ Inv measuringState ∧ measuringState.phase = .run
    ∧ measuringState.access = some (.write measuringState.cfg.vregCtrl 0x2C) := ⟨by decide, measuringState_inv, rfl, by decide⟩

/-- A well-formed layout. -/
theorem witness_LedByteHoldsItsFields :
    Params.reference.wf = true := by decide

/-- A step from a state of a run. -/
theorem witness_EveryStepKeepsTheInvariant :
    Inv measuringState ∧ ∃ t, step measuringState = .next t := ⟨measuringState_inv, _, rfl⟩

/-- A step from a state of a run. -/
theorem witness_EveryStepKeepsTheHandshakeOrder :
    Inv measuringState ∧ HandshakeOrder measuringState ∧ ∃ t, step measuringState = .next t := ⟨measuringState_inv, measuringState_order, _, rfl⟩

/-- Two steps into STARTMEAS its address byte is outstanding, four steps in its data byte. -/
theorem witness_VirtualWriteBytesAreOrdered :
    let s : State := { readyState with inputs := [.present 0x60000000], tape := [.ok 0, .ok 0, .ok 2] }
    Inv s ∧ s.phase = .idle
    ∧ (∃ t, runSteps 2 s = .next t ∧ t.phase = .run ∧ t.access = some (.write 4 0x2C)
      ∧ t.request = some (.wr 1 0x84))
    ∧ ∃ t, runSteps 4 s = .next t ∧ t.phase = .run ∧ t.access = some (.write 4 0x2C)
      ∧ t.request = some (.wr 1 0x2C) := by
  refine ⟨?_, rfl, ⟨_, rfl, rfl, by decide, by decide⟩, _, rfl, rfl, by decide, by decide⟩
  obtain ⟨h1, h2, h3, h4, h5, h6, h7, h8, h9, h10, h11⟩ := readyState_inv
  exact ⟨h1, h2, h3, h4, h5, h6, h7, h8, h9, h10, h11⟩

/-- A state of a run with its trace. -/
theorem witness_PhysicalRegistersAreUsedOneWay :
    (∀ e ∈ measuringState.trace, e.directed measuringState.cfg) ∧ ∃ t, step measuringState = .next t := by
  refine ⟨fun e he => ?_, _, rfl⟩
  simp only [measuringState, List.mem_cons, List.not_mem_nil, or_false] at he
  rcases he with rfl | rfl | rfl
  · exact ⟨rfl, .inl rfl⟩
  · exact ⟨rfl, rfl⟩
  · exact ⟨rfl, .inl rfl⟩

/-- A running command, and an MREAD call with none running. -/
theorem witness_InvariantStatesDoNotFault :
    Inv measuringState ∧ measuringState.nextAct ≠ .mread ∧ readyState.host.pos = .off := ⟨measuringState_inv, by decide, rfl⟩

/-- A step that changes ACC, and one that changes CTRL_SHADOW. -/
theorem witness_OnlyTheirOwnersChangeAccAndShadow :
    stepsTo (runningState (.readmb 0x3C 2) 0 4 [.ok 1]) (fun t => t.acc != 0) = true
    ∧ stepsTo { runningState .init 1 5 [.ok 0] with pend := 0x28 } (fun t => t.ctrlShadow != 0) = true := by decide

/-- A control byte without DRDY, and a STALLED response to the sixth command. -/
theorem witness_MreadEndsEarlyWithoutASnapshot :
    let s : State := { readyState with
      rsp := { State.reset.rsp with valid := true, value := 0x2C }, host := { State.reset.host with pos := .await .ctrl } }
    let r : State := { readyState with
      rsp := { State.reset.rsp with valid := true, status := 1 }, host := { State.reset.host with pos := .await .ch2 } }
    s.inputs = [] ∧ s.host.pos = .await .ctrl ∧ s.phase = .idle ∧ s.rsp.valid = true
    ∧ s.rsp.status = 0 ∧ s.rsp.value.getLsbD s.cfg.ctrl.drdy.val = false
    ∧ r.inputs = [] ∧ r.host.pos = .await .ch2 ∧ r.phase = .idle ∧ r.rsp.valid = true
    ∧ r.rsp.status ≠ 0 := by decide

/-- MREAD called in IDLE and in RUN, waiting in RUN and in IDLE, about to present, and with DRDY seen. -/
theorem witness_MreadPresentsSixCommandsInOrder :
    let c : State := { readyState with inputs := [.mread] }
    let d : State := { measuringState with inputs := [.mread] }
    let b : State := { measuringState with host := { State.reset.host with pos := .await .ctrl } }
    let v : State := { readyState with host := { State.reset.host with pos := .await .ctrl } }
    let s : State := { readyState with host := { State.reset.host with pos := .issue .lux } }
    let r : State := { readyState with
      rsp := { State.reset.rsp with valid := true, value := 0x2E }, host := { State.reset.host with pos := .await .ctrl } }
    (c.inputs = .mread :: [] ∧ c.host.pos = .off ∧ c.phase = .idle)
    ∧ (d.inputs = .mread :: [] ∧ d.host.pos = .off ∧ d.phase = .run ∧ d.cmd = latchOf .startmeas)
    ∧ (b.inputs = [] ∧ b.host.pos = .await .ctrl ∧ b.phase = .run ∧ b.cmd = latchOf .startmeas)
    ∧ (v.inputs = [] ∧ v.host.pos = .await .ctrl ∧ v.phase = .idle ∧ v.rsp.valid = false)
    ∧ (s.inputs = [] ∧ s.host.pos = .issue .lux ∧ s.phase = .idle)
    ∧ r.inputs = [] ∧ r.host.pos = .await .ctrl ∧ r.phase = .idle ∧ r.rsp.valid = true
    ∧ r.rsp.status = 0 ∧ r.rsp.value.getLsbD r.cfg.ctrl.drdy.val = true := by decide

/-- The OK of the sixth command. -/
theorem witness_MreadCompletesWithASnapshot :
    let r : State := { readyState with
      rsp := { State.reset.rsp with valid := true, value := 9 }, host := { State.reset.host with pos := .await .ch2 } }
    r.inputs = [] ∧ r.host.pos = .await .ch2 ∧ r.phase = .idle ∧ r.rsp.valid = true
    ∧ r.rsp.status = 0 := by decide

/-- The last step of an MREAD changes LAST_LUX. -/
theorem witness_SessionChangesOnlyWithAnOkMread :
    let r : State := { readyState with
      rsp := { State.reset.rsp with valid := true }, host := { State.reset.host with pos := .await .ch2, lux := 300 } }
    ∃ t, step r = .next t ∧ t.host.lastLux ≠ r.host.lastLux := ⟨_, rfl, by decide⟩

/-- V-WV-1: the initial reference chip. -/
theorem witness_WritevWritesTheReferenceChip :
    let s := presentedTo State.reset (encode (.writev 5 255))
    s.cfg.wf = true ∧ s.phase = .idle ∧ s.host.pos = .off ∧ s.inputs = [.present (encode (.writev 5 255))]
    ∧ (5 : VAddr) ≠ s.cfg.vregCtrl ∧ (5 : VAddr) ≠ s.cfg.vregLed ∧ RefChip.initial.atRest
    ∧ Memory.wf RefChip.initial.vreg = true := ⟨by decide, rfl, rfl, rfl, by decide, by decide, ⟨rfl, rfl, rfl, rfl, rfl, rfl, rfl⟩, rfl⟩

/-- V-RV-1: a reference chip that holds 0x2E at 0x04. -/
theorem witness_ReadvReadsTheReferenceChip :
    let s := presentedTo State.reset (encode (.readv 4))
    let rc : RefChip := { RefChip.initial with vreg := [(4, 0x2E)] }
    s.cfg.wf = true ∧ s.phase = .idle ∧ s.host.pos = .off ∧ s.inputs = [.present (encode (.readv 4))] ∧ rc.atRest := ⟨by decide, rfl, rfl, rfl, ⟨rfl, rfl, rfl, rfl, rfl, rfl, rfl⟩⟩

/-- Text values at the top of each field, and just above it. -/
theorem witness_AssembledCommandsFitTheirFields :
    assemble .readmb [0x7F, 4] = some (.readmb 0x7F 4) ∧ assemble .writev [0x7F, 0xFF] = some (.writev 0x7F 0xFF)
    ∧ assemble .setled [1, 3, 3] = some (.setled 1 3 3)
    ∧ 0x7F < (0x80 : Nat) ∧ 0xFF < (0x100 : Nat) ∧ 4 < (5 : Nat) ∧ 1 < (2 : Nat) ∧ 3 < (4 : Nat) := by decide

end Sys2Proof.Tests
end

section
/-! Scope (spec 00_scope.md R5): an engine step makes the one transaction it stands at, and a step of the machine makes
at most one. `Issues` says once, for every answer of the transport, what one transaction does to the tape and the trace;
`exec_issues` says that every engine step does just that. -/

namespace Sys2Proof.Machine

/-! ### One transaction -/

/-- The events a request and its answer leave in the trace (R76, R77): one, or none while the transport is silent. -/
def XReq.events (p : Params) (q : XReq) : Answer → List XEvent
  | .ok b => [q.okEvent p b]
  | .fail c => [q.failEvent p (narrowXerr p c)]
  | .silent => []

/-- `t` comes from `s` with the request `q` made once: the transport's answer is used up, and its events are recorded. -/
def Issues (q : XReq) (s t : State) : Prop :=
  t.tape = s.answer.2.tape ∧ t.trace = q.events s.cfg s.answer.1 ++ s.trace

/-- A change of the state that makes no transaction. -/
def KeepsTransport (f : State → State) : Prop := ∀ t, (f t).tape = t.tape ∧ (f t).trace = t.trace

/-- What is done after the transaction, without another one, does not matter. -/
theorem Issues.andThen {q : XReq} {s t : State} {f : State → State} (h : Issues q s t) (hf : KeepsTransport f) :
    Issues q s (f t) :=
  ⟨(hf t).1.trans h.1, (hf t).2.trans h.2⟩

/-- One transaction adds at most one event. -/
theorem Issues.trace_le {q : XReq} {s t : State} (h : Issues q s t) :
    t.trace = s.trace ∨ ∃ e, t.trace = e :: s.trace := by
  obtain ⟨-, htr⟩ := h
  cases ha : s.answer.1 with
  | ok b => exact .inr ⟨_, by rw [htr, ha]; rfl⟩
  | fail c => exact .inr ⟨_, by rw [htr, ha]; rfl⟩
  | silent => exact .inl (by rw [htr, ha]; rfl)

/-- With an answer on the tape, it is the one used up. -/
theorem Issues.of_tape {q : XReq} {s t : State} {a : Answer} {rest : List Answer} (h : Issues q s t)
    (ht : s.tape = a :: rest) : t.tape = rest ∧ t.trace = q.events s.cfg a ++ s.trace := by
  simpa only [Issues, answer_cons s a rest ht] using h

/-- PRD makes its read (R140). -/
theorem physRead_issues (s : State) (r : Byte) : Issues (.rd r) s (s.physRead r).2 := by
  obtain ⟨a, tp, fr, h⟩ := answer_spec s
  unfold Issues State.physRead
  rw [h]
  cases a with
  | ok b => exact ⟨rfl, rfl⟩
  | fail c => exact ⟨rfl, rfl⟩
  | silent => exact ⟨rfl, rfl⟩

/-- PWR makes its write (R141). -/
theorem physWrite_issues (s : State) (r v : Byte) : Issues (.wr r v) s (s.physWrite r v).2 := by
  obtain ⟨a, tp, fr, h⟩ := answer_spec s
  unfold Issues State.physWrite
  rw [h]
  cases a with
  | ok b => exact ⟨rfl, rfl⟩
  | fail c => exact ⟨rfl, rfl⟩
  | silent => exact ⟨rfl, rfl⟩

/-! ### What makes no transaction -/

theorem finish_keepsTransport (v : Word) : KeepsTransport (·.finish v) := fun _ => ⟨rfl, rfl⟩

theorem stall_keepsTransport (c : StallCause) (k : BitVec 3) (j : BitVec 2) (x : Nat) :
    KeepsTransport (·.stall c k j x) := fun _ => ⟨rfl, rfl⟩

theorem toTransfer_keepsTransport (k : BitVec 3) : KeepsTransport (·.toTransfer k) := fun _ => ⟨rfl, rfl⟩

theorem toPoll_keepsTransport (k : BitVec 3) : KeepsTransport (·.toPoll k) := fun _ => ⟨rfl, rfl⟩

theorem countRead_keepsTransport : KeepsTransport State.countRead := fun _ => ⟨rfl, rfl⟩

theorem pollMissed_keepsTransport : KeepsTransport State.pollMissed := by
  intro t
  unfold State.pollMissed
  split
  · exact ⟨rfl, rfl⟩
  · exact ⟨rfl, rfl⟩

/-- The lines that follow a command's virtual access make no transaction. -/
theorem accessDone_keepsTransport (i : Instr) : KeepsTransport (accessDone i) := by
  intro t
  cases i with
  | writev a d => exact finish_keepsTransport 0 t
  | readv a => exact ⟨rfl, rfl⟩
  | readmb a n =>
    simp only [accessDone, mbByteRead]
    split
    · exact ⟨rfl, rfl⟩
    · exact ⟨rfl, rfl⟩
  | init =>
    simp only [accessDone, initWritten]
    split
    · exact ⟨rfl, rfl⟩
    · exact ⟨rfl, rfl⟩
  | setled e drv sns => exact finish_keepsTransport 0 t
  | startmeas => exact ⟨rfl, rfl⟩

/-- The `accept` lines of a command make no transaction. -/
theorem startOf_keepsTransport (i : Instr) : KeepsTransport (startOf i) := by
  intro t
  cases i <;> exact ⟨rfl, rfl⟩

/-! ### One engine step -/

/-- One engine step of POLL reads STATUS (R145). -/
theorem pollStep_issues (s : State) (c : PollCond) {seen : State → State} (hs : KeepsTransport seen) :
    Issues (.rd s.cfg.pregStatus) s (s.pollStep c seen) := by
  have h := physRead_issues s s.cfg.pregStatus
  unfold State.pollStep
  split
  · next t ht => rwa [ht] at h
  · next b t ht =>
    rw [ht] at h
    have hc := h.andThen countRead_keepsTransport
    split
    · exact hc.andThen hs
    · exact hc.andThen pollMissed_keepsTransport
  · next x t ht =>
    rw [ht] at h
    have hc := h.andThen countRead_keepsTransport
    split
    · exact hc.andThen (stall_keepsTransport _ _ _ _)
    · exact hc.andThen pollMissed_keepsTransport

/-- One write to WRITE makes that write (R161, R171). -/
theorem writeStep_issues (s : State) (v : Byte) {sent : State → State} (hs : KeepsTransport sent) :
    Issues (.wr s.cfg.pregWrite v) s (s.writeStep v sent) := by
  have h := physWrite_issues s s.cfg.pregWrite v
  unfold State.writeStep
  split
  · next t ht => rwa [ht] at h
  · next b t ht =>
    rw [ht] at h
    exact h.andThen hs
  · next x t ht =>
    rw [ht] at h
    exact h.andThen (stall_keepsTransport _ _ _ _)

/-- One read of READ makes that read (R171). -/
theorem readStep_issues (s : State) {got : State → State} (hg : KeepsTransport got) :
    Issues (.rd s.cfg.pregRead) s (s.readStep got) := by
  have h := physRead_issues s s.cfg.pregRead
  unfold State.readStep
  split
  · next t ht => rwa [ht] at h
  · next b t ht =>
    rw [ht] at h
    exact Issues.andThen (t := { t with vbyte := b }) h hg
  · next x t ht =>
    rw [ht] at h
    exact h.andThen (stall_keepsTransport _ _ _ _)

/-- One engine step of VWRITE makes the transaction of its handshake step (R161). -/
theorem vwriteStep_issues {a : VAddr} {d : Byte} {done : State → State} {s t : State} (hd : KeepsTransport done)
    (h : vwriteStep a d done s = .next t) :
    ∃ q, (Access.write a d).request s.cfg s.step = some q ∧ Issues q s t := by
  unfold vwriteStep at h
  split at h
  · next hk => cases h; exact ⟨_, by simp only [Access.request, hk], pollStep_issues s _ (toTransfer_keepsTransport 2)⟩
  · next hk => cases h; exact ⟨_, by simp only [Access.request, hk], writeStep_issues s _ (toPoll_keepsTransport 3)⟩
  · next hk => cases h; exact ⟨_, by simp only [Access.request, hk], pollStep_issues s _ (toTransfer_keepsTransport 4)⟩
  · next hk => cases h; exact ⟨_, by simp only [Access.request, hk], writeStep_issues s _ (toPoll_keepsTransport 5)⟩
  · next hk => cases h; exact ⟨_, by simp only [Access.request, hk], pollStep_issues s _ hd⟩
  · cases h

/-- One engine step of VREAD makes the transaction of its handshake step (R171). -/
theorem vreadStep_issues {a : VAddr} {got : State → State} {s t : State} (hg : KeepsTransport got)
    (h : vreadStep a got s = .next t) :
    ∃ q, (Access.read a).request s.cfg s.step = some q ∧ Issues q s t := by
  unfold vreadStep at h
  split at h
  · next hk => cases h; exact ⟨_, by simp only [Access.request, hk], pollStep_issues s _ (toTransfer_keepsTransport 2)⟩
  · next hk => cases h; exact ⟨_, by simp only [Access.request, hk], writeStep_issues s _ (toPoll_keepsTransport 3)⟩
  · next hk => cases h; exact ⟨_, by simp only [Access.request, hk], pollStep_issues s _ (toTransfer_keepsTransport 4)⟩
  · next hk => cases h; exact ⟨_, by simp only [Access.request, hk], readStep_issues s hg⟩
  · cases h

/-- One engine step of a virtual access makes the transaction of its handshake step (R160). -/
theorem runAccess_issues {acc : Access} {done : State → State} {s t : State} (hd : KeepsTransport done)
    (h : runAccess acc done s = .next t) : ∃ q, acc.request s.cfg s.step = some q ∧ Issues q s t := by
  cases acc with
  | write a d => exact vwriteStep_issues hd h
  | read a => exact vreadStep_issues hd h

/-- In RUN a command that goes on had a request outstanding and made it, and nothing else (R5, R31). -/
theorem exec_issues {i : Instr} {s t : State} (hp : s.phase = .run) (h : exec i s = .next t) :
    ∃ q, s.request = some q ∧ Issues q s t := by
  by_cases hc : s.cmd = latchOf i
  · by_cases hs : s.sub.toNat < accessCount i
    · obtain ⟨acc, ha⟩ := access_isSome i s hc
      rw [exec_run i acc s hp hc ha hs] at h
      simpa only [State.request, hp, ha] using runAccess_issues (accessDone_keepsTransport i) h
    · rw [exec_run_none i s hp hc (Nat.le_of_not_lt hs)] at h
      cases h
  · rw [exec_other i s hp hc] at h
    cases h

/-- In IDLE a command makes no transaction: it is refused or accepted (R31, R285). -/
theorem exec_idle_trace {i : Instr} {s t : State} (hp : s.phase = .idle) (h : exec i s = .next t) :
    t.trace = s.trace := by
  rw [exec_idle i s hp] at h
  split at h
  · cases h
    rfl
  · cases h
    exact (startOf_keepsTransport i _).2

/-- A command at a state makes at most one transaction. -/
theorem exec_trace_le {i : Instr} {s t : State} (h : exec i s = .next t) :
    t.trace = s.trace ∨ ∃ e, t.trace = e :: s.trace := by
  cases hp : s.phase with
  | idle => exact .inl (exec_idle_trace hp h)
  | run =>
    obtain ⟨q, -, hq⟩ := exec_issues hp h
    exact hq.trace_le

/-! ### The obligations -/

/-- Settles O38: the request that `exec_issues` finds is the outstanding one, and its answer is the tape's first. -/
theorem engineStepIssuesItsRequest : Obligations.EngineStepIssuesItsRequest := by
  intro i q s t hp _ _ hq h
  obtain ⟨r, hr, hi⟩ := exec_issues hp h
  obtain rfl : q = r := Option.some.inj (hq.symm.trans hr)
  refine ⟨fun b rest ht => hi.of_tape ht, fun c rest ht hc => ?_⟩
  simpa only [XReq.events, narrowXerr_of_lt hc, List.singleton_append] using hi.of_tape ht

/-- Settles O39: of all a step can do (`step_cases`), only a command's step makes transactions, and that at most one. -/
theorem stepIssuesAtMostOneTransaction : Obligations.StepIssuesAtMostOneTransaction := by
  intro s t h
  cases step_cases h with
  | reset _ ht => exact .inl (ht ▸ rfl)
  | waited k _ _ _ ht => exact .inl (ht ▸ rfl)
  | received k _ _ _ _ ht => exact .inl (ht ▸ rfl)
  | refused k c _ _ _ ht => exact .inl (ht ▸ rfl)
  | ran i k ov _ _ _ _ _ he => simpa only [seenBy, dropAct_trace] using exec_trace_le he

end Sys2Proof.Machine
end

section
/-! State (spec 10_state.md): reset meets the machine's invariant and every step keeps it, and ACC, CTRL_SHADOW and the
parameters change under their owners only. `StepCase` says what a step of the machine can do and `AccessStep` what an
engine step can do; here each of their cases is one lemma about `Inv`: moving inside an access, beginning an access,
ending a command, and changing what the invariant does not read. -/

namespace Sys2Proof.Machine

/-! ### One engine step of a running command -/

/-- In RUN a command that goes on is the latched one, at one of its accesses, and makes one step of that access (R31). -/
theorem exec_run_inv {i : Instr} {s t : State} (hp : s.phase = .run) (h : exec i s = .next t) :
    s.cmd = latchOf i ∧ s.sub.toNat < accessCount i
      ∧ ∃ acc, s.access = some acc ∧ AccessStep acc (accessDone i) s (.next t) := by
  by_cases hc : s.cmd = latchOf i
  · by_cases hs : s.sub.toNat < accessCount i
    · obtain ⟨acc, ha⟩ := access_isSome i s hc
      rw [exec_run i acc s hp hc ha hs] at h
      exact ⟨hc, hs, acc, ha, h ▸ runAccess_spec acc (accessDone i) s⟩
    · rw [exec_run_none i s hp hc (Nat.le_of_not_lt hs)] at h
      cases h
  · rw [exec_other i s hp hc] at h
    cases h

/-- In IDLE a command is refused by its value check or accepted (R31, R285). -/
theorem exec_idle_inv {i : Instr} {s t : State} (hp : s.phase = .idle) (h : exec i s = .next t) :
    (∃ c, t = s.illegal c)
    ∨ (operandCheck s.cfg s.initDone i = none ∧ t = startOf i (s.accept (latchOf i))) := by
  rw [exec_idle i s hp] at h
  split at h
  · next c _ => exact .inl ⟨c, by cases h; rfl⟩
  · next hk => exact .inr ⟨hk, by cases h; rfl⟩

/-! ### The `accept` lines -/

@[simp] theorem startOf_cfg (i : Instr) (t : State) : (startOf i t).cfg = t.cfg := by cases i <;> rfl
@[simp] theorem startOf_cmd (i : Instr) (t : State) : (startOf i t).cmd = t.cmd := by cases i <;> rfl
@[simp] theorem startOf_sub (i : Instr) (t : State) : (startOf i t).sub = t.sub := by cases i <;> rfl
@[simp] theorem startOf_step (i : Instr) (t : State) : (startOf i t).step = t.step := by cases i <;> rfl
@[simp] theorem startOf_pcnt (i : Instr) (t : State) : (startOf i t).pcnt = t.pcnt := by cases i <;> rfl
@[simp] theorem startOf_rsp (i : Instr) (t : State) : (startOf i t).rsp = t.rsp := by cases i <;> rfl

/-- The opcode of a latched command (R113). -/
@[simp] theorem latchOf_op (i : Instr) : (latchOf i).op = opcodeOf i := by cases i <;> rfl

/-- Opcode 3 is READMB's (R113). -/
theorem opcodeOf_eq_three {i : Instr} (h : opcodeOf i = 3) : ∃ a n, i = .readmb a n := by
  cases i with
  | readmb a n => exact ⟨a, n, rfl⟩
  | _ => exact absurd h (by simp [opcodeOf])

/-! ### Owners of ACC and CTRL_SHADOW -/

/-- From `s` to `t` the parameters stand, ACC changes only under a READMB, and CTRL_SHADOW only under INIT or STARTMEAS
(R11, R34, R37). -/
def OwnersOnly (s t : State) : Prop :=
  t.cfg = s.cfg ∧ (t.acc ≠ s.acc → t.cmd.op = 3) ∧ (t.ctrlShadow ≠ s.ctrlShadow → t.cmd.op = 4 ∨ t.cmd.op = 6)

/-- What changes none of them. -/
theorem OwnersOnly.of_same {s t : State} (hc : t.cfg = s.cfg) (ha : t.acc = s.acc)
    (hs : t.ctrlShadow = s.ctrlShadow) : OwnersOnly s t :=
  ⟨hc, fun h => absurd ha h, fun h => absurd hs h⟩

/-- The `accept` lines of a command. -/
theorem startOf_ownersOnly (i : Instr) {t : State} (hc : t.cmd = latchOf i) : OwnersOnly t (startOf i t) := by
  have ho : (startOf i t).cmd.op = opcodeOf i := by rw [startOf_cmd, hc, latchOf_op]
  cases i with
  | readmb a n => exact ⟨rfl, fun _ => ho, fun h => absurd rfl h⟩
  | init => exact ⟨rfl, fun h => absurd rfl h, fun _ => .inl ho⟩
  | _ => exact .of_same rfl rfl rfl

/-- The lines that follow a command's virtual access. -/
theorem accessDone_ownersOnly (i : Instr) {t : State} (hc : t.cmd = latchOf i) : OwnersOnly t (accessDone i t) := by
  have ho : t.cmd.op = opcodeOf i := by rw [hc, latchOf_op]
  cases i with
  | readmb a n =>
    simp only [accessDone, mbByteRead]
    split
    · exact ⟨rfl, fun _ => ho, fun h => absurd rfl h⟩
    · exact ⟨rfl, fun _ => ho, fun h => absurd rfl h⟩
  | init =>
    simp only [accessDone, initWritten]
    split
    · exact .of_same rfl rfl rfl
    · exact ⟨rfl, fun h => absurd rfl h, fun _ => .inl ho⟩
  | startmeas => exact ⟨rfl, fun h => absurd rfl h, fun _ => .inr ho⟩
  | _ => exact .of_same rfl rfl rfl

/-- A step of a virtual access changes them only when the access is done. -/
theorem AccessStep.ownersOnly {acc : Access} {done : State → State} {s t : State}
    (h : AccessStep acc done s (.next t)) (hd : ∀ u, u.cmd = s.cmd → OwnersOnly u (done u)) : OwnersOnly s t := by
  cases h with
  | written a d tp fr e => exact hd (afterPollRead s tp fr e) rfl
  | got a b tp fr => exact hd { afterEvent s tp fr (.rdOk s.cfg.devAddr s.cfg.pregRead b) with vbyte := b } rfl
  | _ => exact .of_same rfl rfl rfl

/-- A command at a state. -/
theorem exec_ownersOnly {i : Instr} {s t : State} (h : exec i s = .next t) : OwnersOnly s t := by
  cases hp : s.phase with
  | idle =>
    obtain ⟨c, rfl⟩ | ⟨-, rfl⟩ := exec_idle_inv hp h
    · exact .of_same rfl rfl rfl
    · exact startOf_ownersOnly i (accept_cmd s (latchOf i))
  | run =>
    obtain ⟨hc, -, acc, -, ha⟩ := exec_run_inv hp h
    exact ha.ownersOnly fun u hu => accessDone_ownersOnly i (hu.trans hc)

/-! ### Parts of the invariant -/

/-- An IDLE state meets the invariant by its parameters, its counter, the controller and the response alone. -/
theorem Inv.of_idle {t : State} (hp : t.phase = .idle) (config : t.cfg.wf = true)
    (budget : t.pcnt.toNat ≤ t.cfg.pollBudget) (uninit : t.initDone = false → t.ctrlShadow = 0)
    (ready : t.initDone = true → ∃ m, (m = t.cfg.defaultMode ∨ m = t.cfg.triggerMode)
      ∧ t.ctrlShadow = ctrlByte t.cfg.ctrl 0 t.cfg.defaultInt t.cfg.defaultGain m)
    (response : t.rsp.legal t.cfg) : Inv t := by
  have not_run : t.phase ≠ .run := by rw [hp]; decide
  exact ⟨config, fun h => absurd h not_run, fun h => absurd h not_run, budget, fun h => absurd h not_run,
    fun h => absurd h not_run, fun h => absurd h not_run, uninit, ready, fun h => absurd h not_run, response⟩

/-- The invariant does not read VBYTE, OVERRUN, the host, the transport's lists, the free-value counter or the trace. -/
theorem Inv.outside {s : State} (h : Inv s) (vb : Byte) (ov : Bool) (ho : HostSession) (ins : List HostInput)
    (tp : List Answer) (fr : Nat) (tr : List XEvent) :
    Inv { s with vbyte := vb, overrun := ov, host := ho, inputs := ins, tape := tp, free := fr, trace := tr } :=
  ⟨h.config, h.running, h.invalid, h.budget, h.polling, h.initPend, h.measPend, h.uninit, h.ready, h.assembling,
    h.response⟩

/-- The state a step's command sees meets the invariant. -/
theorem Inv.seenBy {s : State} (h : Inv s) (ho : HostSession) (ov : Bool) : Inv (seenBy s ho ov) :=
  h.outside s.vbyte ov ho s.inputs.tail s.tape s.free s.trace

/-- A running access stands at one of its steps (R33). -/
theorem Inv.hasStep {s : State} (h : Inv s) (hp : s.phase = .run) {acc : Access} (ha : s.access = some acc) :
    acc.hasStep s.step = true := by
  obtain ⟨-, acc', -, -, -, ha', hs⟩ := h.running hp
  rwa [Option.some.inj (ha.symm.trans ha')]

/-- The latched command passed its value checks (R118). -/
theorem Inv.checked {s : State} (h : Inv s) (hp : s.phase = .run) {i : Instr} (hc : s.cmd = latchOf i) :
    operandCheck s.cfg s.initDone i = none := by
  obtain ⟨j, -, hj, hk, -⟩ := h.running hp
  rwa [latchOf_injective (hc.symm.trans hj)]

/-- Every access has steps 1 to 5 only. -/
theorem Access.step_range {acc : Access} {k : BitVec 3} (h : acc.hasStep k = true) : 1 ≤ k.toNat ∧ k.toNat ≤ 5 := by
  cases acc <;> simp only [Access.hasStep, Bool.and_eq_true, decide_eq_true_eq] at h <;> omega

/-- Every access begins at step 1. -/
theorem Access.hasStep_one (acc : Access) : acc.hasStep 1 = true := by cases acc <;> rfl

/-- The steps that poll (R161, R171). -/
theorem Access.polls_step {acc : Access} {k : BitVec 3} {c : PollCond} (h : acc.polls k = some c) :
    k = 1 ∨ k = 3 ∨ k = 5 := by
  cases acc <;> simp only [Access.polls] at h <;> split_ifs at h <;> tauto

/-- One more STATUS read in a polling step that goes on stays within the budget (R149). -/
theorem Inv.counted_le {s : State} (h : Inv s) (hp : s.phase = .run) {acc : Access} {c : PollCond}
    (ha : s.access = some acc) (hc : acc.polls s.step = some c) : (s.pcnt + 1).toNat ≤ s.cfg.pollBudget := by
  have hlt : s.pcnt.toNat < s.cfg.pollBudget := h.polling hp acc ha (by rw [hc]; rfl)
  have hle := pollBudget_le s.cfg
  rw [BitVec.toNat_add]
  exact (Nat.mod_le _ _).trans hlt

/-! ### What keeps the invariant -/

/-- Going to step `k` of the same access, with `p` STATUS reads made there. -/
theorem Inv.moved {s : State} (h : Inv s) {acc : Access} (ha : s.access = some acc) {k : BitVec 3} {p : BitVec 16}
    (hk : acc.hasStep k = true) (hp : p.toNat ≤ s.cfg.pollBudget)
    (hl : (acc.polls k).isSome = true → p.toNat < s.cfg.pollBudget) : Inv { s with step := k, pcnt := p } where
  config := h.config
  running hr := by
    obtain ⟨i, -, hc, hi, hs, -, -⟩ := h.running hr
    exact ⟨i, acc, hc, hi, hs, ha, hk⟩
  invalid := h.invalid
  budget := hp
  polling _ acc' ha' := by
    obtain rfl : acc = acc' := Option.some.inj (ha.symm.trans ha')
    exact hl
  initPend := h.initPend
  measPend := h.measPend
  uninit := h.uninit
  ready := h.ready
  assembling := h.assembling
  response := h.response

/-- A command that ends, or is refused, with a legal response. -/
theorem Inv.ended {s : State} (h : Inv s) {p : BitVec 16} (hp : p.toNat ≤ s.cfg.pollBudget) {r : Response}
    (hr : r.legal s.cfg) : Inv { s with phase := .idle, pcnt := p, rsp := r } :=
  .of_idle rfl h.config hp h.uninit h.ready hr

/-- The response of an OK end (R50, R51). -/
theorem legal_ok (p : Params) (v : Word) :
    Response.legal p { valid := true, status := statusOk, cause := 0, step := 0, sub := 0, xerr := 0, value := v } :=
  .inl ⟨rfl, rfl, rfl, rfl, rfl⟩

/-- The response of a TIMEOUT (R146, R286). -/
theorem legal_timeout (p : Params) {k : BitVec 3} (hk : k = 1 ∨ k = 3 ∨ k = 5) (j : BitVec 2) (v : Word) :
    Response.legal p { valid := true, status := statusStalled, cause := StallCause.timeout.code, step := k, sub := j,
                       xerr := 0, value := v } :=
  .inr (.inl ⟨rfl, rfl, hk, rfl⟩)

/-- The response of a TRANSPORT failure (R282, R286). -/
theorem legal_transport {p : Params} {k : BitVec 3} (hk : 1 ≤ k.toNat ∧ k.toNat ≤ 5) (j : BitVec 2) {x : Nat}
    (hx : x < 2 ^ p.xerrW) (v : Word) :
    Response.legal p { valid := true, status := statusStalled, cause := StallCause.transport.code, step := k, sub := j,
                       xerr := x, value := v } :=
  .inr (.inr (.inl ⟨rfl, rfl, hk.1, hk.2, hx⟩))

/-- The response of an ILLEGAL command word (R285, R286). -/
theorem legal_illegal (p : Params) (c : IllegalCause) (v : Word) :
    Response.legal p { valid := true, status := statusIllegal, cause := c.code, step := 0, sub := 0, xerr := 0,
                       value := v } :=
  .inr (.inr (.inr ⟨rfl, ⟨c, rfl⟩, rfl, rfl, rfl⟩))

/-- A refused command changes the response only (R285). -/
theorem Inv.illegal {s : State} (h : Inv s) (hp : s.phase = .idle) (c : IllegalCause) : Inv (s.illegal c) :=
  .of_idle hp h.config h.budget h.uninit h.ready (legal_illegal s.cfg c _)

/-- A block reset leaves an UNINIT controller and an OK response (R56, R320). -/
theorem Inv.blockReset {s : State} (h : Inv s) : Inv s.blockReset :=
  .of_idle rfl h.config (Nat.zero_le _) (fun _ => rfl) (fun hi => nomatch hi) (.inl ⟨rfl, rfl, rfl, rfl, rfl⟩)

/-! ### Beginning an access -/

/-- A latched command at step 1 of one of its accesses has a position (R31 to R33). -/
theorem running_of_firstStep {t : State} {i : Instr} (hc : t.cmd = latchOf i)
    (hk : operandCheck t.cfg t.initDone i = none) (hs : t.sub.toNat < accessCount i) (h1 : t.step = 1) :
    ∃ i acc, t.cmd = latchOf i ∧ operandCheck t.cfg t.initDone i = none ∧ t.sub.toNat < accessCount i
      ∧ t.access = some acc ∧ acc.hasStep t.step = true := by
  obtain ⟨acc, ha⟩ := access_isSome i t hc
  exact ⟨i, acc, hc, hk, hs, ha, by rw [h1]; exact acc.hasStep_one⟩

/-- No STATUS read made yet is within every budget (R11). -/
theorem zero_lt_pollBudget {t : State} (h : t.pcnt = 0) : t.pcnt.toNat < t.cfg.pollBudget := by
  rw [h]
  exact pollBudget_pos t.cfg

/-- A legal READMB reads 1 to 4 bytes (R118, R192). -/
theorem readmbCheck_none {a : VAddr} {n : BitVec 3} (h : readmbCheck a n = none) : 1 ≤ n.toNat ∧ n.toNat ≤ 4 := by
  unfold readmbCheck at h
  split at h
  · cases h
  · omega

/-- A command that passed its checks makes an access (R33). -/
theorem accessCount_pos {p : Params} {d : Bool} {i : Instr} (h : operandCheck p d i = none) : 0 < accessCount i := by
  cases i with
  | readmb a n => exact (readmbCheck_none h).1
  | _ => simp [accessCount]

/-- An accepted command begins its first access (R31, R32). -/
theorem Inv.accepted {s : State} (h : Inv s) {i : Instr} (hk : operandCheck s.cfg s.initDone i = none) :
    Inv (startOf i (s.accept (latchOf i))) where
  config := by simpa using h.config
  running _ := by
    refine running_of_firstStep (i := i) (by simp) ?_ (by simpa using accessCount_pos hk) (by simp)
    cases i <;> exact hk
  invalid _ := by simp
  budget := (zero_lt_pollBudget (by simp)).le
  polling _ _ _ _ := zero_lt_pollBudget (by simp)
  initPend _ hc := by
    obtain rfl : i = .init := latchOf_injective (by simpa using hc)
    exact ⟨rfl, rfl⟩
  measPend _ hc := by
    obtain rfl : i = .startmeas := latchOf_injective (by simpa using hc)
    rfl
  uninit := by
    cases i with
    | init => exact fun _ => rfl
    | _ => exact h.uninit
  ready := by
    cases i with
    | init => exact fun hi => nomatch hi
    | _ => exact h.ready
  assembling _ ho := by
    obtain ⟨a, n, rfl⟩ : ∃ a n, i = .readmb a n := opcodeOf_eq_three (by simpa using ho)
    exact Nat.one_pos
  response := by
    have := h.response
    simpa [Response.legal] using this

/-- A running command begins its access `j`, with a new ACC or PEND where it is READMB's or INIT's (R33, R190, R215). -/
theorem Inv.begun {s : State} (h : Inv s) (hr : s.phase = .run) {i : Instr} (hc : s.cmd = latchOf i) {j : BitVec 2}
    {a : Word} {q : Byte} (hj : j.toNat < accessCount i)
    (hi : i = .init → q = if j = 0 then ctrlResetWord s.cfg else defaultCfg s.cfg) (hm : i = .startmeas → q = s.pend)
    (ha : s.cmd.op = 3 → a.toNat < 2 ^ (8 * j.toNat)) :
    Inv { s with sub := j, step := 1, pcnt := 0, acc := a, pend := q } where
  config := h.config
  running _ := running_of_firstStep hc (h.checked hr hc) hj rfl
  invalid := h.invalid
  budget := Nat.zero_le _
  polling _ _ _ _ := pollBudget_pos s.cfg
  initPend _ hc' := ⟨(h.initPend hr hc').1, hi (latchOf_injective (hc.symm.trans hc'))⟩
  measPend _ hc' := (hm (latchOf_injective (hc.symm.trans hc'))).trans (h.measPend hr hc')
  uninit := h.uninit
  ready := h.ready
  assembling _ := ha
  response := h.response

/-! ### The end of an access -/

/-- Shifting a byte into an ACC of less than 24 bits loses no bit (R34, R191). -/
theorem accPush_toNat {acc : Word} (b : Byte) (h : acc.toNat < 2 ^ 24) :
    (accPush acc b).toNat = acc.toNat * 256 + b.toNat := by
  have hb : b.toNat < 2 ^ 8 := b.isLt
  simp only [accPush, BitVec.toNat_or, BitVec.toNat_shiftLeft, BitVec.toNat_setWidth]
  rw [Nat.mod_eq_of_lt (by omega : b.toNat < 2 ^ 32), Nat.mod_eq_of_lt (by rw [Nat.shiftLeft_eq]; omega),
    ← Nat.shiftLeft_add_eq_or_of_lt hb, Nat.shiftLeft_eq]

/-- One more byte in an ACC of `k` bytes, fewer than four, makes one of `k + 1` bytes (R191). -/
theorem accPush_toNat_lt {acc : Word} (b : Byte) {k : Nat} (hk : k < 4) (h : acc.toNat < 2 ^ (8 * k)) :
    (accPush acc b).toNat < 2 ^ (8 * (k + 1)) := by
  have hb : b.toNat < 256 := b.isLt
  rw [accPush_toNat b (h.trans_le (Nat.pow_le_pow_right (by omega) (by omega))),
    show 8 * (k + 1) = 8 * k + 8 by omega, Nat.pow_add]
  omega

/-- The state after the last transaction of a virtual access: what the transport moved, VBYTE, and the count of STATUS
reads. -/
def afterAccess (s : State) (p : BitVec 16) (b : Byte) (tp : List Answer) (fr : Nat) (tr : List XEvent) : State :=
  { s with pcnt := p, vbyte := b, tape := tp, free := fr, trace := tr }

section
variable {s : State} (h : Inv s) (hr : s.phase = .run) {p : BitVec 16} (hp : p.toNat ≤ s.cfg.pollBudget)
  (b : Byte) (tp : List Answer) (fr : Nat) (tr : List XEvent)
include h hr hp

/-- READMB goes on with its next access, ACC holding one byte more, or ends (R190, R191). -/
theorem Inv.mbByteRead {a : VAddr} {n : BitVec 3} (hc : s.cmd = latchOf (.readmb a n)) :
    Inv (mbByteRead (afterAccess s p b tp fr tr)) := by
  have hn : s.cmd.n = n := by rw [hc]; rfl
  have hn4 : n.toNat ≤ 4 := (readmbCheck_none (h.checked hr hc)).2
  simp only [Machine.mbByteRead]
  split
  · next hlt =>
    replace hlt : s.sub.toNat + 1 < n.toNat := hn ▸ hlt
    have hsub : (s.sub + 1).toNat = s.sub.toNat + 1 := BitVec.toNat_add_of_lt (by show s.sub.toNat + 1 < 4; omega)
    refine (h.begun hr hc (j := s.sub + 1) (a := accPush s.acc b) (q := s.pend) ?_ (fun hi => nomatch hi)
      (fun _ => rfl) fun ho => ?_).outside b s.overrun s.host s.inputs tp fr tr
    · show (s.sub + 1).toNat < n.toNat
      omega
    · rw [hsub]
      exact accPush_toNat_lt b (by omega) (h.assembling hr ho)
  · exact .of_idle rfl h.config hp h.uninit h.ready (legal_ok _ _)

/-- INIT goes on with its configuration write, or ends READY with the default control byte (R215). -/
theorem Inv.initWritten (hc : s.cmd = latchOf .init) : Inv (initWritten (afterAccess s p b tp fr tr)) := by
  obtain ⟨-, hpend⟩ := h.initPend hr hc
  unfold Machine.initWritten
  split
  · exact (h.begun hr hc (j := 1) (a := s.acc) (q := defaultCfg s.cfg) Nat.one_lt_two (fun _ => rfl)
      (fun hi => nomatch hi) fun ho => absurd (hc ▸ ho : (latchOf .init).op = 3) (by decide)).outside
        b s.overrun s.host s.inputs tp fr tr
  · next hs =>
    exact .of_idle rfl h.config hp (fun hi => nomatch hi) (fun _ => ⟨_, .inl rfl, hpend.trans (if_neg hs)⟩)
      (legal_ok _ _)

/-- STARTMEAS ends READY with the trigger mode in the shadow, its INT and GAIN as they were (R225, R226). -/
theorem Inv.startmeasWritten (hc : s.cmd = latchOf .startmeas) :
    Inv (startmeasWritten (afterAccess s p b tp fr tr)) := by
  have hd : s.initDone = true := by
    have hk := h.checked hr hc
    by_contra hn
    simp [operandCheck, startmeasCheck, hn] at hk
  have hpend : s.pend = ctrlByte s.cfg.ctrl 0 s.cfg.defaultInt s.cfg.defaultGain s.cfg.triggerMode := by
    obtain ⟨m, -, hm⟩ := h.ready hd
    rw [h.measPend hr hc, triggerByte, hm, ctrlInt_ctrlByte (ctrl_apart h.config),
      ctrlGain_ctrlByte (ctrl_apart h.config)]
  exact .of_idle rfl h.config hp (fun hi => nomatch hd.symm.trans hi) (fun _ => ⟨_, .inr rfl, hpend⟩) (legal_ok _ _)

/-- Every command goes on, or ends, in the invariant when its virtual access is done. -/
theorem Inv.accessDone {i : Instr} (hc : s.cmd = latchOf i) : Inv (accessDone i (afterAccess s p b tp fr tr)) := by
  have finished (v : Word) : Inv ((afterAccess s p b tp fr tr).finish v) :=
    (h.ended hp (legal_ok s.cfg v)).outside b s.overrun s.host s.inputs tp fr tr
  cases i with
  | writev a d => exact finished 0
  | readv a => exact finished (b.setWidth 32)
  | readmb a n => exact h.mbByteRead hr hp b tp fr tr hc
  | init => exact h.initWritten hr hp b tp fr tr hc
  | setled e drv sns => exact finished 0
  | startmeas => exact h.startmeasWritten hr hp b tp fr tr hc

end

/-! ### Every step -/

/-- One step of the running access keeps the invariant: it stays, moves inside the access, is done, or stalls. -/
theorem Inv.accessStep {s t : State} {acc : Access} {i : Instr} (h : Inv s) (hr : s.phase = .run)
    (hc : s.cmd = latchOf i) (ha : s.access = some acc) (hs : AccessStep acc (Machine.accessDone i) s (.next t)) :
    Inv t := by
  have hstep := h.hasStep hr ha
  have aside {u : State} (hu : Inv u) (tp : List Answer) (fr : Nat) (tr : List XEvent) :
      Inv { u with tape := tp, free := fr, trace := tr } :=
    hu.outside u.vbyte u.overrun u.host u.inputs tp fr tr
  cases hs with
  | blocked tp fr _ => exact aside h tp fr s.trace
  | again tp fr c e hpl _ hlt => exact aside (h.moved ha hstep hlt.le fun _ => hlt) tp fr (e :: s.trace)
  | seen tp fr c e hpl _ h13 =>
    have h24 : acc.hasStep (s.step + 1) = true ∧ acc.polls (s.step + 1) = none := by
      rcases h13 with h13 | h13 <;> rw [h13] <;> cases acc <;> exact ⟨rfl, rfl⟩
    exact aside (h.moved ha h24.1 (h.counted_le hr ha hpl) fun hn => by rw [h24.2] at hn; cases hn) tp fr (e :: s.trace)
  | written a d tp fr e hw h5 _ =>
    have hpl : acc.polls s.step = some .txClear := by rw [hw, h5]; rfl
    exact h.accessDone hr (h.counted_le hr ha hpl) s.vbyte tp fr (e :: s.trace) hc
  | sent tp fr v hv =>
    have h35 : acc.hasStep (s.step + 1) = true := by
      rcases hv with ⟨h2, -⟩ | ⟨h4, a, rfl⟩
      · rw [h2]; cases acc <;> rfl
      · rw [h4]; rfl
    exact aside (h.moved (p := 0) ha h35 (Nat.zero_le _) fun _ => pollBudget_pos s.cfg) tp fr
      (.wrOk s.cfg.devAddr s.cfg.pregWrite v :: s.trace)
  | got a b tp fr _ _ => exact h.accessDone hr h.budget b tp fr (.rdOk s.cfg.devAddr s.cfg.pregRead b :: s.trace) hc
  | timeout tp fr c e hpl _ _ =>
    exact aside (h.ended (h.counted_le hr ha hpl) (legal_timeout s.cfg (Access.polls_step hpl) s.sub _)) tp (fr + 1)
      (e :: s.trace)
  | aborted tp fr c e x hpl _ hx =>
    exact aside (h.ended (h.counted_le hr ha hpl) (legal_transport (Access.step_range hstep) s.sub hx _)) tp (fr + 1)
      (e :: s.trace)
  | writeFailed tp fr v x _ hx =>
    exact aside (h.ended h.budget (legal_transport (Access.step_range hstep) s.sub hx _)) tp (fr + 1)
      (.wrFail s.cfg.devAddr s.cfg.pregWrite v x :: s.trace)
  | readFailed a tp fr x _ _ hx =>
    exact aside (h.ended h.budget (legal_transport (Access.step_range hstep) s.sub hx _)) tp (fr + 1)
      (.rdFail s.cfg.devAddr s.cfg.pregRead x :: s.trace)

/-- A command at a state keeps the invariant. -/
theorem exec_inv {i : Instr} {s t : State} (h : Inv s) (he : exec i s = .next t) : Inv t := by
  cases hp : s.phase with
  | idle =>
    obtain ⟨c, rfl⟩ | ⟨hk, rfl⟩ := exec_idle_inv hp he
    · exact h.illegal hp c
    · exact h.accepted hk
  | run =>
    obtain ⟨hc, -, acc, ha, hs⟩ := exec_run_inv hp he
    exact h.accessStep hp hc ha hs

/-! ### The command port and the status word -/

/-- A word at the head of the host's acts goes to the command port (R59). -/
theorem step_present {s : State} {w : Word} {rest : List HostInput} (h : s.inputs = .present w :: rest) :
    step s = presentWord w { s with inputs := rest } := by
  simp only [step, machineStep, State.nextAct, State.dropAct, h, actStep, List.tail_cons]

/-- In IDLE the command port runs a word that decodes (R31). -/
theorem presentWord_idle {s : State} {w : Word} {i : Instr} (hp : s.phase = .idle) (hd : decode w = .ok i) :
    presentWord w s = exec i s := by
  simp only [presentWord, hp, hd]

/-- ESTAT is one concatenation of its parts, each bit of it the bit of the part it falls in (R53). -/
theorem estat_getLsbD (s : State) (k : Nat) : s.estat.getLsbD k =
    match k with
    | 0 => s.busy
    | 1 => s.initDone
    | 2 => s.overrun
    | 3 => s.rsp.valid
    | k + 4 => (s.ctrlShadow ++ 0#4).getLsbD k := by
  show (s.ctrlShadow ++ 0#4 ++ BitVec.ofBool s.rsp.valid ++ BitVec.ofBool s.overrun ++ BitVec.ofBool s.initDone
    ++ BitVec.ofBool s.busy : BitVec (8 + 4 + 1 + 1 + 1 + 1)).getLsbD k = _
  simp only [BitVec.getLsbD_append, BitVec.getLsbD_ofBool]
  match k with
  | 0 | 1 | 2 | 3 => simp
  | k + 4 => simp

/-! ### The obligations -/

/-- Settles O48: each of the cases of `step_cases` keeps the invariant. -/
theorem everyStepKeepsTheInvariant : Obligations.EveryStepKeepsTheInvariant := by
  intro s t h hs
  cases step_cases hs with
  | reset _ ht => exact ht ▸ (h.seenBy s.host s.overrun).blockReset
  | waited k _ _ _ ht => exact ht ▸ h.seenBy k s.overrun
  | received k _ _ _ _ ht => exact ht ▸ h.seenBy _ s.overrun
  | refused k c _ hp _ ht => exact ht ▸ (h.seenBy k s.overrun).illegal hp c
  | ran i k ov _ _ _ _ _ he => exact exec_inv (h.seenBy k ov) he

/-- Settles O53: of the cases of `step_cases` only a block reset and a command's step change any of them. -/
theorem onlyTheirOwnersChangeAccAndShadow : Obligations.OnlyTheirOwnersChangeAccAndShadow := by
  intro s t h
  have unless_reset : OwnersOnly s t → t.cfg = s.cfg ∧ (t.acc ≠ s.acc → s.nextAct = .reset ∨ t.cmd.op = 3)
      ∧ (t.ctrlShadow ≠ s.ctrlShadow → s.nextAct = .reset ∨ t.cmd.op = 4 ∨ t.cmd.op = 6) :=
    fun ⟨hc, ha, hs⟩ => ⟨hc, fun hn => .inr (ha hn), fun hn => .inr (hs hn)⟩
  cases step_cases h with
  | reset hr ht => exact ⟨ht ▸ rfl, fun _ => .inl hr, fun _ => .inl hr⟩
  | waited k _ _ _ ht => exact unless_reset (ht ▸ .of_same rfl rfl rfl)
  | received k _ _ _ _ ht => exact unless_reset (ht ▸ .of_same rfl rfl rfl)
  | refused k c _ _ _ ht => exact unless_reset (ht ▸ .of_same rfl rfl rfl)
  | ran i k ov _ _ _ _ _ he => exact unless_reset (exec_ownersOnly (s := seenBy s k ov) he)

/-- Settles O7: the command port takes the word, and in IDLE runs its command. -/
theorem stepRunsThePresentedCommand : Obligations.StepRunsThePresentedCommand :=
  fun _ _ _ _ hp hw hd => (step_present hw).trans (presentWord_idle hp hd)

/-- Settles O8: alone, a step is the engine's own. -/
theorem engineOnItsOwnRunsTheLatchedCommand : Obligations.EngineOnItsOwnRunsTheLatchedCommand :=
  ⟨fun s i hp ha hc => (step_alone s ha).trans (engineStep_run s i hp hc),
    fun s hp ha => (step_alone s ha).trans (engineStep_idle s hp)⟩

/-- Settles O11: the single bits and the two fields, each read off `estat_getLsbD`. -/
theorem estatShowsTheEngine : Obligations.EstatShowsTheEngine := by
  intro s
  refine ⟨estat_getLsbD s 0, estat_getLsbD s 1, estat_getLsbD s 2, estat_getLsbD s 3, ?_, ?_⟩
  · refine BitVec.eq_of_getLsbD_eq fun j hj => ?_
    simp only [BitVec.getLsbD_extractLsb', Nat.add_comm 4 j, estat_getLsbD, BitVec.getLsbD_append]
    simp [hj]
  · refine BitVec.eq_of_getLsbD_eq fun j hj => ?_
    simp only [BitVec.getLsbD_extractLsb', show 8 + j = (4 + j) + 4 by omega, estat_getLsbD, BitVec.getLsbD_append]
    simp [hj]

/-- Settles O12: the reset state is given field by field. -/
theorem resetLeavesTheSpecsValues : Obligations.ResetLeavesTheSpecsValues := by
  unfold Obligations.ResetLeavesTheSpecsValues
  decide

/-- Settles O47: the reset state is IDLE and UNINIT at the reference parameters, with an OK response. -/
theorem resetMeetsTheInvariant : Obligations.ResetMeetsTheInvariant :=
  ⟨.of_idle rfl (by decide) (by decide) (fun _ => rfl) (fun h => nomatch h) (.inl ⟨rfl, rfl, rfl, rfl, rfl⟩),
    fun h => nomatch h⟩

end Sys2Proof.Machine
end

section
/-! Memory (spec 20_memory.md): the order of the handshake's transactions (R83), the one direction each physical register
is used in (R71), and the blocking transport port (R76). -/

namespace Sys2Proof.Machine

/-! ### The order of a handshake -/

/-- The trace right after a WRITE transaction. -/
theorem sinceWrite_wrOk (p : Params) (v : Byte) (tr : List XEvent) :
    sinceWrite p v (.wrOk p.devAddr p.pregWrite v :: tr) :=
  ⟨[], tr, rfl, fun _ he => absurd he List.not_mem_nil⟩

/-- One more STATUS read since a WRITE transaction. -/
theorem sinceWrite.cons {p : Params} {v : Byte} {e : XEvent} {tr : List XEvent} (h : sinceWrite p v tr)
    (he : e.isStatusRead p) : sinceWrite p v (e :: tr) := by
  obtain ⟨reads, older, rfl, hr⟩ := h
  exact ⟨e :: reads, older, rfl, List.forall_mem_cons.mpr ⟨he, hr⟩⟩

section
variable {p : Params} {acc : Access} {k : BitVec 3} {tr : List XEvent} {e : XEvent} {c : PollCond}

/-- The first step of an access asks nothing of the trace. -/
theorem orderedAt_one : orderedAt p acc 1 tr :=
  ⟨fun h => absurd h (by decide), fun h => absurd h (by decide), fun h => absurd h (by decide),
    fun h => absurd h (by decide)⟩

/-- A polling step that reads STATUS again stays in order (R83). -/
theorem orderedAt.again (h : orderedAt p acc k tr) (hp : acc.polls k = some c) (he : e.isStatusRead p) :
    orderedAt p acc k (e :: tr) := by
  obtain ⟨-, h3, -, h5⟩ := h
  have not_transfer : k ≠ 2#3 ∧ k ≠ 4#3 := by rcases Access.polls_step hp with rfl | rfl | rfl <;> decide
  exact ⟨fun h2 => absurd h2 not_transfer.1, fun hk => (h3 hk).cons he, fun h4 => absurd h4 not_transfer.2,
    fun hk a d ha => (h5 hk a d ha).cons he⟩

/-- The STATUS read that shows a polling step's condition comes right before the transfer (R161, R171). -/
theorem orderedAt.seen (h : orderedAt p acc k tr) (hp : acc.polls k = some c) (he : e.shows p c)
    (hk : k = 1 ∨ k = 3) : orderedAt p acc (k + 1) (e :: tr) := by
  obtain ⟨-, h3, -, -⟩ := h
  rcases hk with rfl | rfl
  · obtain rfl : c = .txClear := by cases acc <;> exact (Option.some.inj hp).symm
    exact ⟨fun _ => ⟨e, tr, rfl, he⟩, fun h => absurd h (by decide), fun h => absurd h (by decide),
      fun h => absurd h (by decide)⟩
  · obtain rfl : c = acc.latched := by cases acc <;> exact (Option.some.inj hp).symm
    exact ⟨fun h => absurd h (by decide), fun h => absurd h (by decide), fun _ => ⟨e, tr, rfl, he, h3 rfl⟩,
      fun h => absurd h (by decide)⟩

/-- After the address byte, and after the data byte, the last transaction is that write (R161, R171). -/
theorem orderedAt_sent {v : Byte} (hv : k = 2 ∧ v = acc.addressByte ∨ k = 4 ∧ ∃ a, acc = .write a v) :
    orderedAt p acc (k + 1) (.wrOk p.devAddr p.pregWrite v :: tr) := by
  rcases hv with ⟨rfl, rfl⟩ | ⟨rfl, a, rfl⟩
  · exact ⟨fun h => absurd h (by decide), fun _ => sinceWrite_wrOk p _ tr, fun h => absurd h (by decide),
      fun h => absurd h (by decide)⟩
  · refine ⟨fun h => absurd h (by decide), fun h => absurd h (by decide), fun h => absurd h (by decide),
      fun _ a' d ha => ?_⟩
    obtain ⟨-, rfl⟩ := Access.write.inj ha
    exact sinceWrite_wrOk p v tr

end

/-! ### Where the running access is not in the middle -/

theorem HandshakeOrder.of_idle {t : State} (h : t.phase = .idle) : HandshakeOrder t :=
  fun hr => nomatch h.symm.trans hr

theorem HandshakeOrder.of_firstStep {t : State} (h : t.step = 1) : HandshakeOrder t :=
  fun _ _ _ => h ▸ orderedAt_one

/-- When its virtual access is done a command ends or begins its next access. -/
theorem accessDone_idle_or_firstStep (i : Instr) (t : State) :
    (accessDone i t).phase = .idle ∨ (accessDone i t).step = 1 := by
  cases i with
  | readmb a n =>
    simp only [accessDone, mbByteRead]
    split
    · exact .inr rfl
    · exact .inl rfl
  | init =>
    simp only [accessDone, initWritten]
    split
    · exact .inr rfl
    · exact .inl rfl
  | _ => exact .inl rfl

/-- So the trace is in order there, whatever it is. -/
theorem HandshakeOrder.accessDone (i : Instr) (t : State) : HandshakeOrder (accessDone i t) :=
  (accessDone_idle_or_firstStep i t).elim .of_idle .of_firstStep

/-! ### Every step keeps the order -/

/-- One step of the running access: it stays, polls, moves to its next step, is done, or stalls. -/
theorem HandshakeOrder.accessStep {s t : State} {acc : Access} {i : Instr} (h : HandshakeOrder s)
    (hr : s.phase = .run) (ha : s.access = some acc) (hs : AccessStep acc (Machine.accessDone i) s (.next t)) :
    HandshakeOrder t := by
  have ho : orderedAt s.cfg acc s.step s.trace := h hr acc ha
  have of_access {u : State} (hu : u.access = s.access) (hk : orderedAt u.cfg acc u.step u.trace) :
      HandshakeOrder u := fun _ acc' ha' => by
    obtain rfl : acc = acc' := Option.some.inj ((ha.symm.trans hu.symm).trans ha')
    exact hk
  cases hs with
  | blocked tp fr _ => exact of_access rfl ho
  | again tp fr c e hp he _ => exact of_access rfl (ho.again hp he)
  | seen tp fr c e hp he h13 => exact of_access rfl (ho.seen hp he h13)
  | written a d tp fr e _ _ _ => exact .accessDone i _
  | sent tp fr v hv => exact of_access rfl (orderedAt_sent hv)
  | got a b tp fr _ _ => exact .accessDone i _
  | timeout => exact .of_idle rfl
  | aborted => exact .of_idle rfl
  | writeFailed => exact .of_idle rfl
  | readFailed => exact .of_idle rfl

/-- A command at a state. -/
theorem HandshakeOrder.of_exec {i : Instr} {s t : State} (h : HandshakeOrder s) (he : exec i s = .next t) :
    HandshakeOrder t := by
  cases hp : s.phase with
  | idle =>
    obtain ⟨c, rfl⟩ | ⟨-, rfl⟩ := exec_idle_inv hp he
    · exact .of_idle hp
    · exact .of_firstStep (by simp)
  | run =>
    obtain ⟨-, -, acc, ha, hs⟩ := exec_run_inv hp he
    exact h.accessStep hp ha hs

/-- Settles O49: of the cases of `step_cases` only a command's step leaves the engine in RUN, and that keeps the order. -/
theorem everyStepKeepsTheHandshakeOrder : Obligations.EveryStepKeepsTheHandshakeOrder := by
  intro s t _ h hs
  cases step_cases hs with
  | reset _ ht => exact .of_idle (ht ▸ rfl)
  | waited k _ hp _ ht => exact .of_idle (ht ▸ hp)
  | received k _ hp _ _ ht => exact .of_idle (ht ▸ hp)
  | refused k c _ hp _ ht => exact .of_idle (ht ▸ hp)
  | ran i k ov _ _ _ _ _ he => exact HandshakeOrder.of_exec (s := seenBy s k ov) h he

/-! ### The direction of the physical registers -/

/-- The request of a virtual access reads STATUS or READ, or writes WRITE, and so do its events, whatever the answer
(R71). -/
theorem Access.request_directed {p : Params} {acc : Access} {k : BitVec 3} {q : XReq} (h : acc.request p k = some q)
    (a : Answer) : ∀ e ∈ q.events p a, e.directed p := by
  have hq : q = .rd p.pregStatus ∨ q = .rd p.pregRead ∨ ∃ v, q = .wr p.pregWrite v := by
    unfold Access.request at h
    split at h <;> simp only [Option.some.injEq, reduceCtorEq] at h <;> simp [← h]
  cases a with
  | silent => exact fun e he => absurd he List.not_mem_nil
  | _ =>
    obtain rfl | rfl | ⟨v, rfl⟩ := hq
    · exact List.forall_mem_singleton.mpr ⟨rfl, .inl rfl⟩
    · exact List.forall_mem_singleton.mpr ⟨rfl, .inr rfl⟩
    · exact List.forall_mem_singleton.mpr ⟨rfl, rfl⟩

/-- The outstanding request is one of the running access's. -/
theorem State.request_eq_some {s : State} {q : XReq} (h : s.request = some q) :
    ∃ acc, s.access = some acc ∧ acc.request s.cfg s.step = some q := by
  unfold State.request at h
  split at h
  · cases h
  · split at h
    · next acc ha => exact ⟨acc, ha, h⟩
    · cases h

/-- The events a command's step adds to the trace are directed (R71). -/
theorem exec_directed {i : Instr} {s t : State} (hs : ∀ e ∈ s.trace, e.directed s.cfg) (h : exec i s = .next t) :
    ∀ e ∈ t.trace, e.directed s.cfg := by
  cases hp : s.phase with
  | idle => rwa [exec_idle_trace hp h]
  | run =>
    obtain ⟨q, hq, -, htr⟩ := exec_issues hp h
    obtain ⟨acc, -, hacc⟩ := State.request_eq_some hq
    rw [htr]
    exact List.forall_mem_append.mpr ⟨Access.request_directed hacc _, hs⟩

/-- Settles O51: the parameters stand, and only a command's step adds an event, that of its directed request. -/
theorem physicalRegistersAreUsedOneWay : Obligations.PhysicalRegistersAreUsedOneWay := by
  intro s t hs h
  obtain ⟨hcfg, -, -⟩ := onlyTheirOwnersChangeAccAndShadow s t h
  rw [hcfg]
  cases step_cases h with
  | reset _ ht => exact ht ▸ hs
  | waited k _ _ _ ht => exact ht ▸ hs
  | received k _ _ _ _ ht => exact ht ▸ hs
  | refused k c _ _ _ ht => exact ht ▸ hs
  | ran i k ov _ _ _ _ _ he => exact exec_directed (s := seenBy s k ov) hs he

/-! ### The blocking port -/

section
variable {s : State} {rest : List Answer} (ht : s.tape = .silent :: rest)
include ht

/-- Without an answer POLL waits (R76). -/
theorem pollStep_silent (c : PollCond) (seen : State → State) : s.pollStep c seen = { s with tape := rest } := by
  simp [State.pollStep, State.physRead, answer_cons s _ _ ht]

/-- Without an answer a write to WRITE waits (R76). -/
theorem writeStep_silent (v : Byte) (sent : State → State) : s.writeStep v sent = { s with tape := rest } := by
  simp [State.writeStep, State.physWrite, answer_cons s _ _ ht]

/-- Without an answer a read of READ waits (R76). -/
theorem readStep_silent (got : State → State) : s.readStep got = { s with tape := rest } := by
  simp [State.readStep, State.physRead, answer_cons s _ _ ht]

/-- Without an answer the running access stays where it is: each handshake step with a request is one of the three
transactions above, and `hq` leaves out the others. -/
theorem runAccess_silent {acc : Access} {q : XReq} (hq : acc.request s.cfg s.step = some q) (done : State → State) :
    runAccess acc done s = .next { s with tape := rest } := by
  cases acc with
  | write a d =>
    simp only [runAccess, vwriteStep, pollStep_silent ht, writeStep_silent ht]
    split
    case h_6 => simp_all [Access.request]
    all_goals rfl
  | read a =>
    simp only [runAccess, vreadStep, pollStep_silent ht, writeStep_silent ht, readStep_silent ht]
    split
    case h_5 => simp_all [Access.request]
    all_goals rfl

end

/-- Settles O37: the outstanding request is a transaction of the running access, which waits. -/
theorem silentTransportBlocksTheEngine : Obligations.SilentTransportBlocksTheEngine := by
  intro i q rest s hp hc hs hq ht
  obtain ⟨acc, ha, hacc⟩ := State.request_eq_some hq
  rw [exec_run i acc s hp hc ha hs, runAccess_silent ht hacc]

end Sys2Proof.Machine
end

section
/-! Memory (spec 20_memory.md): WRITEV and READV against the reference chip at rest (R95 to R102). The engine's half is a
step of the running access whose one request is answered (`runWithChip_access`, and a lemma for each handshake step);
the chip's half is what RC answers at each transaction of a handshake, from rest to rest. -/

namespace Sys2Proof.Machine

/-! ### The words of WRITEV and READV -/

/-- The decoder reads WRITEV back from its word (R112, R113). -/
theorem decode_encode_writev (a : VAddr) (d : Byte) : decode (encode (.writev a d)) = .ok (.writev a d) := by
  have hop : (fieldOp (encode (.writev a d))).toNat = 1 := congrArg BitVec.toNat (Laws.OpcodeField.writev a d)
  have hmask : encode (.writev a d) &&& 0xFFFF8000#32 = 0x10000000#32 := by
    show (0x1#4 ++ 0#13 ++ a ++ d) &&& (0xF#4 ++ 0x1FFF#13 ++ 0#7 ++ 0#8) = _
    simp only [BitVec.and_append, BitVec.and_zero]
    rfl
  have haddr : fieldAddr (encode (.writev a d)) = a :=
    (BitVec.extractLsb'_append_eq_of_le (xhi := 0x1#4 ++ 0#13 ++ a) le_rfl).trans BitVec.extractLsb'_append_eq_right
  have hdata : fieldData (encode (.writev a d)) = d := BitVec.extractLsb'_append_eq_right
  simp only [decode, hop, rowOr, if_pos hmask, haddr, hdata]

/-- The decoder reads READV back from its word (R112, R113). -/
theorem decode_encode_readv (a : VAddr) : decode (encode (.readv a)) = .ok (.readv a) := by
  have hop : (fieldOp (encode (.readv a))).toNat = 2 := congrArg BitVec.toNat (Laws.OpcodeField.readv a)
  have hmask : encode (.readv a) &&& 0xFFFF80FF#32 = 0x20000000#32 := by
    show (0x2#4 ++ 0#13 ++ a ++ 0#8) &&& (0xF#4 ++ 0x1FFF#13 ++ 0#7 ++ 0xFF#8) = _
    simp only [BitVec.and_append, BitVec.and_zero]
    rfl
  have haddr : fieldAddr (encode (.readv a)) = a :=
    (BitVec.extractLsb'_append_eq_of_le (xhi := 0x2#4 ++ 0#13 ++ a) le_rfl).trans BitVec.extractLsb'_append_eq_right
  simp only [decode, hop, rowOr, if_pos hmask, haddr]

/-! ### Transactions that succeed -/

section
variable {s : State} {b : Byte} {rest : List Answer} (ht : s.tape = .ok b :: rest)
include ht

/-- POLL goes on with a byte that shows its condition (R145). -/
theorem pollStep_ok {c : PollCond} (hb : c.holds s.cfg b = true) (seen : State → State) :
    s.pollStep c seen = seen (afterPollRead s rest s.free (.rdOk s.cfg.devAddr s.cfg.pregStatus b)) := by
  simp only [State.pollStep, State.physRead, answer_cons s _ _ ht, hb, if_true]
  rfl

/-- An answered write to WRITE goes on. -/
theorem writeStep_ok (v : Byte) (sent : State → State) :
    s.writeStep v sent = sent (afterEvent s rest s.free (.wrOk s.cfg.devAddr s.cfg.pregWrite v)) := by
  simp only [State.writeStep, State.physWrite, answer_cons s _ _ ht]
  rfl

/-- An answered read of READ gives VBYTE its byte and goes on. -/
theorem readStep_ok (got : State → State) :
    s.readStep got =
      got { afterEvent s rest s.free (.rdOk s.cfg.devAddr s.cfg.pregRead b) with vbyte := b } := by
  simp only [State.readStep, State.physRead, answer_cons s _ _ ht]
  rfl

end

/-! ### The running access, with a chip that answers -/

/-- The engine is on its own, running the access `acc` of the command `i`. -/
structure InAccess (i : Instr) (acc : Access) (s : State) : Prop where
  alone : s.alone
  run : s.phase = .run
  latched : s.cmd = latchOf i
  sub : s.sub.toNat < accessCount i
  access : s.access = some acc

/-- The state at step `k` of its access, with `p` STATUS reads made there and the trace `tr`. -/
def atStep (s : State) (k : BitVec 3) (p : BitVec 16) (tr : List XEvent) : State :=
  { s with step := k, pcnt := p, trace := tr }

/-- The state with the chip's answer at the head of the tape. -/
def answered (s : State) (b : Byte) : State := { s with tape := .ok b :: s.tape }

theorem InAccess.atStep {i : Instr} {acc : Access} {s : State} (h : InAccess i acc s) (k : BitVec 3) (p : BitVec 16)
    (tr : List XEvent) : InAccess i acc (atStep s k p tr) :=
  ⟨h.alone, h.run, h.latched, h.sub, h.access⟩

theorem InAccess.answered {i : Instr} {acc : Access} {s : State} (h : InAccess i acc s) (b : Byte) :
    InAccess i acc (answered s b) :=
  ⟨h.alone, h.run, h.latched, h.sub, h.access⟩

/-- On its own, a step is one step of the running access. -/
theorem InAccess.step {i : Instr} {acc : Access} {s : State} (h : InAccess i acc s) :
    step s = runAccess acc (accessDone i) s := by
  rw [step_alone s h.alone, engineStep_run s i h.run h.latched, exec_run i acc s h.run h.latched h.access h.sub]

section
variable {i : Instr} {acc : Access} {s : State} (h : InAccess i acc s) {rc rc' : RefChip} {b : Byte} (n : Nat)
include h

/-- A step of the running access whose request the chip answers. -/
theorem runWithChip_access {t : State} {q : XReq} (hq : acc.request s.cfg s.step = some q)
    (hx : rc.transact s.cfg q = (.ok b, rc')) (ht : runAccess acc (accessDone i) (answered s b) = .next t) :
    runWithChip (n + 1) rc s = runWithChip n rc' t := by
  have hreq : s.request = some q := by simp only [State.request, h.run, h.access, hq]
  have hact : s.nextAct = .wait := by simp only [State.nextAct, h.alone.1]
  have hchip : chipAnswers rc s = (answered s b, rc') := by simp only [chipAnswers, hact, hreq, hx, answered]
  simp only [runWithChip, hchip, (h.answered b).step, ht]

variable (p : BitVec 16) (tr : List XEvent)

/-- Step 1: the STATUS read shows TX_PENDING clear (R161, R171). -/
theorem runWithChip_firstPoll (hx : rc.transact s.cfg (.rd s.cfg.pregStatus) = (.ok b, rc'))
    (hb : PollCond.txClear.holds s.cfg b = true) :
    runWithChip (n + 1) rc (atStep s 1 p tr)
      = runWithChip n rc' (atStep s 2 (p + 1) (.rdOk s.cfg.devAddr s.cfg.pregStatus b :: tr)) := by
  refine runWithChip_access (h.atStep 1 p tr) n (q := .rd s.cfg.pregStatus) ?_ hx ?_
  · cases acc <;> rfl
  · cases acc <;> exact congrArg Host.Outcome.next (pollStep_ok (s := answered (atStep s 1 p tr) b) rfl hb _)

/-- Step 2: the address byte is written (R161, R171). -/
theorem runWithChip_addressWrite
    (hx : rc.transact s.cfg (.wr s.cfg.pregWrite acc.addressByte) = (.ok b, rc')) :
    runWithChip (n + 1) rc (atStep s 2 p tr)
      = runWithChip n rc' (atStep s 3 0 (.wrOk s.cfg.devAddr s.cfg.pregWrite acc.addressByte :: tr)) := by
  refine runWithChip_access (h.atStep 2 p tr) n (q := .wr s.cfg.pregWrite acc.addressByte) ?_ hx ?_
  · cases acc <;> rfl
  · cases acc <;> exact congrArg Host.Outcome.next (writeStep_ok rfl _ _)

/-- Step 3: the STATUS read shows that the chip took the address byte (R161, R171). -/
theorem runWithChip_secondPoll (hx : rc.transact s.cfg (.rd s.cfg.pregStatus) = (.ok b, rc'))
    (hb : acc.latched.holds s.cfg b = true) :
    runWithChip (n + 1) rc (atStep s 3 p tr)
      = runWithChip n rc' (atStep s 4 (p + 1) (.rdOk s.cfg.devAddr s.cfg.pregStatus b :: tr)) := by
  refine runWithChip_access (h.atStep 3 p tr) n (q := .rd s.cfg.pregStatus) ?_ hx ?_
  · cases acc <;> rfl
  · cases acc <;> exact congrArg Host.Outcome.next (pollStep_ok (s := answered (atStep s 3 p tr) b) rfl hb _)

end

section
variable {i : Instr} {a : VAddr} {s : State} {rc rc' : RefChip} {b : Byte} (n : Nat) (p : BitVec 16)
  (tr : List XEvent)

/-- Step 4 of a virtual write: the data byte is written (R161). -/
theorem runWithChip_dataWrite {d : Byte} (h : InAccess i (.write a d) s)
    (hx : rc.transact s.cfg (.wr s.cfg.pregWrite d) = (.ok b, rc')) :
    runWithChip (n + 1) rc (atStep s 4 p tr)
      = runWithChip n rc' (atStep s 5 0 (.wrOk s.cfg.devAddr s.cfg.pregWrite d :: tr)) :=
  runWithChip_access (h.atStep 4 p tr) n (q := .wr s.cfg.pregWrite d) rfl hx
    (congrArg Host.Outcome.next (writeStep_ok rfl _ _))

/-- Step 5 of a virtual write: the STATUS read shows TX_PENDING clear again (R161). -/
theorem runWithChip_lastPoll {d : Byte} (h : InAccess i (.write a d) s)
    (hx : rc.transact s.cfg (.rd s.cfg.pregStatus) = (.ok b, rc')) (hb : PollCond.txClear.holds s.cfg b = true) :
    runWithChip (n + 1) rc (atStep s 5 p tr)
      = runWithChip n rc' (accessDone i (atStep s 5 (p + 1) (.rdOk s.cfg.devAddr s.cfg.pregStatus b :: tr))) :=
  runWithChip_access (h.atStep 5 p tr) n (q := .rd s.cfg.pregStatus) rfl hx
    (congrArg Host.Outcome.next (pollStep_ok (s := answered (atStep s 5 p tr) b) rfl hb _))

/-- Step 4 of a virtual read: READ gives the byte (R171). -/
theorem runWithChip_dataRead (h : InAccess i (.read a) s)
    (hx : rc.transact s.cfg (.rd s.cfg.pregRead) = (.ok b, rc')) :
    runWithChip (n + 1) rc (atStep s 4 p tr)
      = runWithChip n rc' (accessDone i
          { atStep s 4 p (.rdOk s.cfg.devAddr s.cfg.pregRead b :: tr) with vbyte := b }) :=
  runWithChip_access (h.atStep 4 p tr) n (q := .rd s.cfg.pregRead) rfl hx
    (congrArg Host.Outcome.next (readStep_ok rfl _))

end

/-- A word presented to an IDLE engine: the chip has no part in the step that accepts its command (R31). -/
theorem runWithChip_accepted {i : Instr} {s : State} (n : Nat) (rc : RefChip) (hp : s.phase = .idle)
    (hw : s.inputs = [.present (encode i)]) (hd : decode (encode i) = .ok i)
    (hk : operandCheck s.cfg s.initDone i = none) :
    runWithChip (n + 1) rc s
      = runWithChip n rc (startOf i (({ s with inputs := [] } : State).accept (latchOf i))) := by
  have hchip : chipAnswers rc s = (s, rc) := by simp only [chipAnswers, State.nextAct, State.request, hw, hp]
  have hstep : step s = .next (startOf i (({ s with inputs := [] } : State).accept (latchOf i))) := by
    rw [stepRunsThePresentedCommand s _ _ i hp hw hd, exec_idle i { s with inputs := [] } hp]
    simp only [hk]
  simp only [runWithChip, hchip, hstep]

/-! ### The chip, from rest to rest -/

/-- The STATUS bytes of RC (R97). -/
@[simp] theorem statusByte_clear (p : Params) : statusByte p false false = 0 := by simp [statusByte]
@[simp] theorem statusByte_tx (p : Params) : statusByte p true false = 1#8 <<< p.txBit.val := by simp [statusByte]
@[simp] theorem statusByte_rx (p : Params) : statusByte p false true = 1#8 <<< p.rxBit.val := by simp [statusByte]

/-- What they show (R143). -/
theorem holds_txClear_zero (p : Params) : PollCond.txClear.holds p 0 = true := by
  simp [PollCond.holds, statusTx]

theorem holds_txSet_txBit (p : Params) : PollCond.txSet.holds p (1#8 <<< p.txBit.val) = true := by
  simp [PollCond.holds, statusTx]

theorem holds_rxSet_rxBit (p : Params) : PollCond.rxSet.holds p (1#8 <<< p.rxBit.val) = true := by
  simp [PollCond.holds, statusRx]

/-- An address byte is its address and, in bit 7, the write flag (R72). -/
theorem writeAddrByte_flag (a : VAddr) : (writeAddrByte a)[7] = true := by
  simp [writeAddrByte, writeFlag]

theorem writeAddrByte_addr (a : VAddr) : (writeAddrByte a).setWidth 7 = a := by
  simp [writeAddrByte, writeFlag]

theorem readAddrByte_flag (a : VAddr) : (readAddrByte a)[7] = false := by
  simp [readAddrByte]

theorem readAddrByte_toNat (a : VAddr) : (readAddrByte a).toNat = a.toNat := by
  simp only [readAddrByte, BitVec.toNat_setWidth]
  exact Nat.mod_eq_of_lt (by omega)

/-- RC at rest (R96), with its memory, the two registers nothing reads before they are written, and its count. -/
def RefChip.resting (m : Memory) (l : VAddr) (r : Byte) (n : Nat) : RefChip :=
  { RefChip.initial with vreg := m, laddr := l, rbuf := r, count := n }

/-- It is what the statements call at rest. -/
theorem RefChip.resting_atRest (m : Memory) (l : VAddr) (r : Byte) (n : Nat) : (resting m l r n).atRest :=
  ⟨rfl, rfl, rfl, rfl, rfl, rfl, rfl⟩

/-- Every chip at rest is of this form. -/
theorem RefChip.atRest.eq_resting {rc : RefChip} (h : rc.atRest) : ∃ m l r n, rc = resting m l r n := by
  obtain ⟨htx, hrx, hwph, hpend, hlat, hstuck, hfail⟩ := h
  cases rc
  simp_all [resting, initial]

namespace RefChip
variable (p : Params) (m : Memory) (a l : VAddr) (d r : Byte) (n : Nat)

/-- RC with the address byte of a virtual write taken: the flag TX is about to be set (R98). -/
def addressed : RefChip := { resting m a r n with wph := .waitData, pend := [(0, .tx true)] }

/-- RC waiting for the data byte of a virtual write, the flag TX set (R97). -/
def waiting : RefChip := { resting m a r n with wph := .waitData, tx := true }

/-- RC with the data byte of a virtual write taken: the flag TX is about to be cleared (R99). -/
def stored : RefChip := { resting m a r n with tx := true, pend := [(0, .tx false)] }

/-- RC with the address byte of a virtual read taken: the flag RX is about to be set (R100). -/
def staged : RefChip := { resting m l r n with pend := [(0, .rx true)] }

/-- RC with the byte of a virtual read at READ, the flag RX set (R97). -/
def ready : RefChip := { resting m l r n with rx := true }

/-- At rest STATUS shows neither flag (R97). -/
theorem resting_status : (resting m l r n).transact p (.rd p.pregStatus) = (.ok 0, resting m l r (n + 1)) := by
  simp [transact, serve, resting, initial, elapse]

/-- R98. -/
theorem resting_writeAddress :
    (resting m l r n).transact p (.wr p.pregWrite (writeAddrByte a)) = (.ok 0, addressed m a r (n + 1)) := by
  simp [transact, serve, resting, initial, takeByte, writeAddrByte_flag, writeAddrByte_addr, schedule, addressed]

/-- R97, R98. -/
theorem addressed_status :
    (addressed m a r n).transact p (.rd p.pregStatus) = (.ok (1#8 <<< p.txBit.val), waiting m a r (n + 1)) := by
  simp [transact, serve, resting, initial, addressed, waiting, elapse, applyChange]

/-- R99, R102: outside VREG_CTRL every byte is stored. -/
theorem waiting_writeData (h : a ≠ p.vregCtrl) :
    (waiting m a r n).transact p (.wr p.pregWrite d) = (.ok 0, stored (m.write a.toNat d) a r (n + 1)) := by
  simp [transact, serve, resting, initial, waiting, stored, takeByte, vwrite, h, schedule]

/-- R97, R99. -/
theorem stored_status :
    (stored m a r n).transact p (.rd p.pregStatus) = (.ok 0, resting m a r (n + 1)) := by
  simp [transact, serve, resting, initial, stored, elapse, applyChange]

/-- R100. -/
theorem resting_readAddress :
    (resting m l r n).transact p (.wr p.pregWrite (readAddrByte a))
      = (.ok 0, staged m l (m.read a.toNat) (n + 1)) := by
  simp [transact, serve, resting, initial, takeByte, readAddrByte_flag, readAddrByte_toNat, schedule, staged]

/-- R97, R100. -/
theorem staged_status :
    (staged m l r n).transact p (.rd p.pregStatus) = (.ok (1#8 <<< p.rxBit.val), ready m l r (n + 1)) := by
  simp [transact, serve, resting, initial, staged, ready, elapse, applyChange]

/-- R101; a chip with one register for STATUS and READ would answer with STATUS. -/
theorem ready_read (h : p.pregStatus ≠ p.pregRead) :
    (ready m l r n).transact p (.rd p.pregRead) = (.ok r, resting m l r (n + 1)) := by
  simp [transact, serve, resting, initial, ready, h.symm]

end RefChip

/-! ### Virtual accesses against the chip -/

/-- A virtual write outside VREG_CTRL, from rest to rest: five transactions, and the byte is stored (R161, R98, R99). -/
theorem runWithChip_vwrite {i : Instr} {a : VAddr} {d : Byte} {s : State} (h : InAccess i (.write a d) s)
    (ha : a ≠ s.cfg.vregCtrl) (k : Nat) (p : BitVec 16) (tr : List XEvent) (m : Memory) (l : VAddr) (r : Byte)
    (n : Nat) :
    runWithChip (k + 5) (.resting m l r n) (atStep s 1 p tr)
      = runWithChip k (.resting (m.write a.toNat d) a r (n + 5)) (accessDone i (atStep s 5 1
          ([.rdOk s.cfg.devAddr s.cfg.pregStatus 0, .wrOk s.cfg.devAddr s.cfg.pregWrite d,
            .rdOk s.cfg.devAddr s.cfg.pregStatus (1#8 <<< s.cfg.txBit.val),
            .wrOk s.cfg.devAddr s.cfg.pregWrite (writeAddrByte a),
            .rdOk s.cfg.devAddr s.cfg.pregStatus 0] ++ tr))) := by
  rw [runWithChip_firstPoll h _ p tr (RefChip.resting_status s.cfg m l r n) (holds_txClear_zero s.cfg),
    runWithChip_addressWrite h _ _ _ (RefChip.resting_writeAddress s.cfg m a l r (n + 1)),
    runWithChip_secondPoll h _ _ _ (RefChip.addressed_status s.cfg m a r (n + 2)) (holds_txSet_txBit s.cfg),
    runWithChip_dataWrite _ _ _ h (RefChip.waiting_writeData s.cfg m a d r (n + 3) ha),
    runWithChip_lastPoll _ _ _ h (RefChip.stored_status s.cfg _ a r (n + 4)) (holds_txClear_zero s.cfg)]
  rfl

/-- A virtual read, from rest to rest: four transactions, and VBYTE takes the chip's byte (R171, R100, R101). -/
theorem runWithChip_vread {i : Instr} {a : VAddr} {s : State} (h : InAccess i (.read a) s)
    (hs : s.cfg.pregStatus ≠ s.cfg.pregRead) (k : Nat) (p : BitVec 16) (tr : List XEvent) (m : Memory) (l : VAddr)
    (r : Byte) (n : Nat) :
    runWithChip (k + 4) (.resting m l r n) (atStep s 1 p tr)
      = runWithChip k (.resting m l (m.read a.toNat) (n + 4)) (accessDone i { atStep s 4 1
          ([.rdOk s.cfg.devAddr s.cfg.pregRead (m.read a.toNat),
            .rdOk s.cfg.devAddr s.cfg.pregStatus (1#8 <<< s.cfg.rxBit.val),
            .wrOk s.cfg.devAddr s.cfg.pregWrite (readAddrByte a),
            .rdOk s.cfg.devAddr s.cfg.pregStatus 0] ++ tr) with vbyte := m.read a.toNat }) := by
  rw [runWithChip_firstPoll h _ p tr (RefChip.resting_status s.cfg m l r n) (holds_txClear_zero s.cfg),
    runWithChip_addressWrite h _ _ _ (RefChip.resting_readAddress s.cfg m a l r (n + 1)),
    runWithChip_secondPoll h _ _ _ (RefChip.staged_status s.cfg m l _ (n + 2)) (holds_rxSet_rxBit s.cfg),
    runWithChip_dataRead _ _ _ h (RefChip.ready_read s.cfg m l _ (n + 3) hs)]
  rfl

/-! ### The obligations -/

/-- R12: STATUS and READ are two registers. -/
theorem pregStatus_ne_pregRead {p : Params} (h : p.wf = true) : p.pregStatus ≠ p.pregRead := by
  simp [Params.wf, Params.checks] at h
  tauto

/-- Settles O58: WRITEV is accepted, and makes its virtual write from rest to rest. -/
theorem writevWritesTheReferenceChip : Obligations.WritevWritesTheReferenceChip := by
  intro a d rc s _ hp hh hw hctrl hled hrc hm
  have hk : operandCheck s.cfg s.initDone (.writev a d) = none := if_neg (not_or.mpr ⟨hctrl, hled⟩)
  have h : InAccess (.writev a d) (.write a d) (({ s with inputs := [] } : State).accept (latchOf (.writev a d))) :=
    ⟨⟨rfl, hh⟩, rfl, rfl, Nat.one_pos, rfl⟩
  obtain ⟨m, l, r, n, rfl⟩ := hrc.eq_resting
  have hrun := (runWithChip_accepted 5 (.resting m l r n) hp hw (decode_encode_writev a d) hk).trans
    (runWithChip_vwrite h hctrl 0 0 s.trace m l r n)
  exact ⟨_, _, hrun, rfl, rfl, rfl, rfl, rfl, RefChip.resting_atRest _ _ _ _, wf_write hm, fun x => read_write hm⟩

/-- Settles O59: READV is accepted, and makes its virtual read from rest to rest. -/
theorem readvReadsTheReferenceChip : Obligations.ReadvReadsTheReferenceChip := by
  intro a rc s hwf hp hh hw hrc
  have h : InAccess (.readv a) (.read a) (({ s with inputs := [] } : State).accept (latchOf (.readv a))) :=
    ⟨⟨rfl, hh⟩, rfl, rfl, Nat.one_pos, rfl⟩
  obtain ⟨m, l, r, n, rfl⟩ := hrc.eq_resting
  have hrun := (runWithChip_accepted 4 (.resting m l r n) hp hw (decode_encode_readv a) rfl).trans
    (runWithChip_vread h (pregStatus_ne_pregRead hwf) 0 0 s.trace m l r n)
  exact ⟨_, _, hrun, rfl, rfl, rfl, rfl, rfl, RefChip.resting_atRest _ _ _ _, rfl⟩

end Sys2Proof.Machine
end

section
/-! Encoding (spec 30_encoding.md). Every field of a word, and every block of bits that a format leaves unused, is a
quotient and a remainder of the word's number, so what `encode i = w` says of `w` is arithmetic (`encode_eq_iff`). The
decoder's rows are the fields of the word read as a latch, with the unused bits 0 (`decode_of_command`). The two together
say that a word decodes to the command it is the word of, and to no other (`decode_eq_ok_iff`). -/

namespace Sys2Proof.Machine

/-! ### The fields of a word as numbers -/

/-- A concatenation as a number. -/
theorem toNat_append_eq_add {m n : Nat} (x : BitVec m) (y : BitVec n) :
    (x ++ y).toNat = x.toNat * 2 ^ n + y.toNat := by
  rw [BitVec.toNat_append, ← Nat.shiftLeft_add_eq_or_of_lt y.isLt, Nat.shiftLeft_eq]

/-- A field of a word as a number. -/
theorem toNat_extractLsb'_eq_div_mod (w : Word) (p k : Nat) : (w.extractLsb' p k).toNat = w.toNat / 2 ^ p % 2 ^ k := by
  rw [BitVec.extractLsb'_toNat, Nat.shiftRight_eq_div_pow]

/-- OP is the number above the lower 28 bits (R111). -/
theorem fieldOp_toNat (w : Word) : (fieldOp w).toNat = w.toNat / 2 ^ 28 := by
  rw [fieldOp, toNat_extractLsb'_eq_div_mod]
  exact Nat.mod_eq_of_lt (Nat.div_lt_of_lt_mul w.isLt)

theorem fieldAddr_toNat (w : Word) : (fieldAddr w).toNat = w.toNat / 2 ^ 8 % 2 ^ 7 := toNat_extractLsb'_eq_div_mod w 8 7
theorem fieldData_toNat (w : Word) : (fieldData w).toNat = w.toNat / 2 ^ 0 % 2 ^ 8 := toNat_extractLsb'_eq_div_mod w 0 8
theorem fieldN_toNat (w : Word) : (fieldN w).toNat = w.toNat / 2 ^ 24 % 2 ^ 3 := toNat_extractLsb'_eq_div_mod w 24 3
theorem fieldE_toNat (w : Word) : (fieldE w).toNat = w.toNat / 2 ^ 24 % 2 ^ 1 := toNat_extractLsb'_eq_div_mod w 24 1
theorem fieldDrv_toNat (w : Word) : (fieldDrv w).toNat = w.toNat / 2 ^ 2 % 2 ^ 2 := toNat_extractLsb'_eq_div_mod w 2 2
theorem fieldSns_toNat (w : Word) : (fieldSns w).toNat = w.toNat / 2 ^ 0 % 2 ^ 2 := toNat_extractLsb'_eq_div_mod w 0 2

/-- The operand fields of a word, each at its place (R114), as a latch holds them. -/
def fieldsOf (w : Word) : Latch where
  op := fieldOp w
  a := fieldAddr w
  d := fieldData w
  n := fieldN w
  e := fieldE w
  drv := fieldDrv w
  sns := fieldSns w

/-! ### The bits a format leaves unused -/

/-- A conjunction with `k` ones from bit `p` up keeps that block of bits. -/
theorem and_block_eq (x p k : Nat) : x &&& (2 ^ k - 1) * 2 ^ p = x / 2 ^ p % 2 ^ k * 2 ^ p := by
  refine Nat.eq_of_testBit_eq fun j => ?_
  simp only [Nat.testBit_and, Nat.testBit_mul_two_pow, Nat.testBit_two_pow_sub_one, Nat.testBit_mod_two_pow,
    Nat.testBit_div_two_pow]
  by_cases h : p ≤ j
  · simp [h, Bool.and_comm]
  · simp [h]

/-- A word has only zeros under a block of ones when its number has. -/
theorem and_eq_zero_iff_of_block {w b : Word} {p k : Nat} (hb : b.toNat = (2 ^ k - 1) * 2 ^ p) :
    w &&& b = 0 ↔ w.toNat / 2 ^ p % 2 ^ k = 0 := by
  rw [← BitVec.toNat_inj, BitVec.toNat_and, hb, and_block_eq]
  simp

/-- A word has only zeros under two masks together when it has under each. -/
theorem and_eq_zero_iff_of_or {w b x y : Word} (hb : b = x ||| y) : w &&& b = 0 ↔ w &&& x = 0 ∧ w &&& y = 0 := by
  rw [hb, BitVec.and_or_distrib_left]
  exact BitVec.or_eq_zero_iff

/-- A word of this number is 0 in every block of bits that the command's format leaves unused (R112). -/
def unusedZero (x : Nat) : Instr → Prop
  | .writev _ _ => x / 2 ^ 15 % 2 ^ 13 = 0
  | .readv _ => x / 2 ^ 15 % 2 ^ 13 = 0 ∧ x / 2 ^ 0 % 2 ^ 8 = 0
  | .readmb _ _ => x / 2 ^ 27 % 2 ^ 1 = 0 ∧ x / 2 ^ 15 % 2 ^ 9 = 0 ∧ x / 2 ^ 0 % 2 ^ 8 = 0
  | .init => x / 2 ^ 0 % 2 ^ 28 = 0
  | .setled _ _ _ => x / 2 ^ 25 % 2 ^ 3 = 0 ∧ x / 2 ^ 4 % 2 ^ 20 = 0
  | .startmeas => x / 2 ^ 0 % 2 ^ 28 = 0

/-- The blocks are the complement of the bits used. -/
theorem unusedZero_iff {w : Word} {i : Instr} :
    w &&& ~~~usedBits (opcodeOf i).toNat = 0 ↔ unusedZero w.toNat i := by
  cases i with
  | writev a d => exact and_eq_zero_iff_of_block (b := ~~~usedBits 1) rfl
  | readv a =>
    refine (and_eq_zero_iff_of_or (b := ~~~usedBits 2) (x := 0x0FFF8000) (y := 0xFF) rfl).trans ?_
    exact and_congr (and_eq_zero_iff_of_block rfl) (and_eq_zero_iff_of_block rfl)
  | readmb a n =>
    refine (and_eq_zero_iff_of_or (b := ~~~usedBits 3) (x := 0x08000000) (y := 0x00FF80FF) rfl).trans ?_
    refine and_congr (and_eq_zero_iff_of_block rfl) ?_
    refine (and_eq_zero_iff_of_or (b := 0x00FF80FF) (x := 0x00FF8000) (y := 0xFF) rfl).trans ?_
    exact and_congr (and_eq_zero_iff_of_block rfl) (and_eq_zero_iff_of_block rfl)
  | init => exact and_eq_zero_iff_of_block rfl
  | setled e drv sns =>
    refine (and_eq_zero_iff_of_or (b := ~~~usedBits 5) (x := 0x0E000000) (y := 0x00FFFFF0) rfl).trans ?_
    exact and_congr (and_eq_zero_iff_of_block rfl) (and_eq_zero_iff_of_block rfl)
  | startmeas => exact and_eq_zero_iff_of_block rfl

/-! ### The word of a command -/

/-- The latch holds the operands of the command (R114). -/
def operandsIn (l : Latch) : Instr → Prop
  | .writev addr data => l.a = addr ∧ l.d = data
  | .readv addr => l.a = addr
  | .readmb addr n => l.a = addr ∧ l.n = n
  | .init => True
  | .setled e drv sns => l.e = e ∧ l.drv = drv ∧ l.sns = sns
  | .startmeas => True

/-- The command a latch holds is the one with the latch's opcode and operands. -/
theorem instrOf_eq_some_iff {l : Latch} {i : Instr} : instrOf l = some i ↔ l.op = opcodeOf i ∧ operandsIn l i := by
  constructor
  · intro h
    refine ⟨(instrOf_op h).trans (latchOf_op i), ?_⟩
    unfold instrOf at h
    split at h <;> cases h <;> simp [operandsIn]
  · rintro ⟨hop, h⟩
    cases i <;> simp_all [instrOf, opcodeOf, operandsIn]

/-- A latch holds no command when its opcode is reserved (R113, R116). -/
theorem instrOf_eq_none_iff {l : Latch} : instrOf l = none ↔ l.op.toNat = 0 ∨ 7 ≤ l.op.toNat := by
  unfold instrOf
  split
  case h_7 => simp_all only [imp_false, true_iff]; omega
  all_goals simp only [reduceCtorEq, false_iff]; omega

/-- The word of a command is the word with its opcode, its operands in their fields, and nothing else (R112, R113): for
each command, the digits of one number. -/
theorem encode_eq_iff {i : Instr} {w : Word} : encode i = w ↔
    fieldOp w = opcodeOf i ∧ operandsIn (fieldsOf w) i ∧ w &&& ~~~usedBits (fieldOp w).toNat = 0 := by
  suffices h : encode i = w ↔ fieldOp w = opcodeOf i ∧ operandsIn (fieldsOf w) i ∧ unusedZero w.toNat i from
    h.trans (and_congr_right fun hop => by rw [hop, unusedZero_iff])
  cases i <;>
    simp only [encode, opcodeOf, operandsIn, fieldsOf, unusedZero, true_and, ← BitVec.toNat_inj, toNat_append_eq_add,
      fieldOp_toNat, fieldAddr_toNat, fieldData_toNat, fieldN_toNat, fieldE_toNat, fieldDrv_toNat, fieldSns_toNat,
      BitVec.ofNat_eq_ofNat, BitVec.toNat_ofNat] <;>
    omega

/-! ### The decoder -/

/-- The opcode mask keeps the opcode (R111). -/
theorem and_opcodeMask (w : Word) : w &&& 0xF0000000#32 = fieldOp w ++ 0#28 := by
  have := w.isLt
  refine BitVec.eq_of_toNat_eq ?_
  rw [BitVec.toNat_and, show (0xF0000000#32).toNat = (2 ^ 4 - 1) * 2 ^ 28 from rfl, and_block_eq, toNat_append_eq_add,
    fieldOp_toNat, BitVec.toNat_ofNat]
  omega

/-- A row's mask asks for its opcode and for zeros in the unused bits (R113, R117). -/
theorem rowOr_eq {w mask matched : Word} {k : BitVec 4} (hop : fieldOp w = k) (hmatched : k ++ 0#28 = matched)
    (hmask : 0xF0000000#32 ||| ~~~usedBits k.toNat = mask) (hused : matched &&& ~~~usedBits k.toNat = 0) (i : Instr) :
    rowOr w mask matched i = if w &&& ~~~usedBits k.toNat = 0 then .ok i else .error .rsvdBits := by
  have hiff : w &&& mask = matched ↔ w &&& ~~~usedBits k.toNat = 0 := by
    rw [← hmask, BitVec.and_or_distrib_left, and_opcodeMask, hop, hmatched]
    constructor
    · intro h
      have := congrArg (· &&& ~~~usedBits k.toNat) h
      simpa [BitVec.and_or_distrib_right, hused, BitVec.and_assoc] using this
    · intro h
      simp [h]
  simp only [rowOr, hiff]

/-- A word with a reserved opcode is refused with RSVD_OP (R116). -/
theorem decode_of_reserved {w : Word} (h : (fieldOp w).toNat = 0 ∨ 7 ≤ (fieldOp w).toNat) :
    decode w = .error .rsvdOp := by
  unfold decode
  split
  case h_7 => rfl
  all_goals omega

/-- A word with a defined opcode is that opcode's command with the word's fields, or RSVD_BITS (R117). -/
theorem decode_of_command {w : Word} {i : Instr} (h : instrOf (fieldsOf w) = some i) :
    decode w = if w &&& ~~~usedBits (fieldOp w).toNat = 0 then .ok i else .error .rsvdBits := by
  obtain ⟨hop, h⟩ := instrOf_eq_some_iff.mp h
  have hop : fieldOp w = opcodeOf i := hop
  rw [decode, hop]
  cases i with
  | writev a d =>
    obtain ⟨rfl, rfl⟩ := h
    exact rowOr_eq (k := 1) hop rfl rfl rfl _
  | readv a =>
    cases h
    exact rowOr_eq (k := 2) hop rfl rfl rfl _
  | readmb a n =>
    obtain ⟨rfl, rfl⟩ := h
    exact rowOr_eq (k := 3) hop rfl rfl rfl _
  | init => exact rowOr_eq (k := 4) hop rfl rfl rfl _
  | setled e drv sns =>
    obtain ⟨rfl, rfl, rfl⟩ := h
    exact rowOr_eq (k := 5) hop rfl rfl rfl _
  | startmeas => exact rowOr_eq (k := 6) hop rfl rfl rfl _

/-- A word decodes to a command exactly when it is the word of that command (R112, R113, R117). -/
theorem decode_eq_ok_iff {w : Word} {i : Instr} : decode w = .ok i ↔ encode i = w := by
  rw [encode_eq_iff]
  constructor
  · intro h
    cases hj : instrOf (fieldsOf w) with
    | none =>
      rw [decode_of_reserved (instrOf_eq_none_iff.mp hj)] at h
      cases h
    | some j =>
      rw [decode_of_command hj] at h
      split at h
      · next hu =>
        cases h
        exact and_assoc.mp ⟨instrOf_eq_some_iff.mp hj, hu⟩
      · cases h
  · rintro ⟨hop, ho, hu⟩
    rw [decode_of_command (instrOf_eq_some_iff.mpr ⟨hop, ho⟩), if_pos hu]

/-- A command and its word decode and encode into each other. -/
theorem decode_and_encode {w : Word} {i : Instr} (h : encode i = w) : decode w = .ok i ∧ encode i = w :=
  ⟨decode_eq_ok_iff.mpr h, h⟩

/-- A latch whose opcode is not reserved holds a command (R113). -/
theorem instrOf_isSome {l : Latch} (h : ¬(l.op.toNat = 0 ∨ 7 ≤ l.op.toNat)) : ∃ i, instrOf l = some i :=
  Option.ne_none_iff_exists'.mp (mt instrOf_eq_none_iff.mp h)

/-- A word with a defined opcode and an unused bit set is refused with RSVD_BITS (R117). -/
theorem decode_of_unused {w : Word} (hop : ¬((fieldOp w).toNat = 0 ∨ 7 ≤ (fieldOp w).toNat))
    (hu : w &&& ~~~usedBits (fieldOp w).toNat ≠ 0) : decode w = .error .rsvdBits := by
  obtain ⟨i, hi⟩ := instrOf_isSome (l := fieldsOf w) hop
  rw [decode_of_command hi, if_neg hu]

/-! ### The command port in IDLE -/

/-- A word with a reserved opcode fails the first check (R116, R119). -/
theorem classify_of_reserved {p : Params} {r : Bool} {w : Word}
    (h : (fieldOp w).toNat = 0 ∨ 7 ≤ (fieldOp w).toNat) : classify p r w = .error .rsvdOp := by
  simp only [classify, decode_of_reserved h, decodeCause]

/-- A word with a defined opcode and an unused bit set fails the second check (R117, R119). -/
theorem classify_of_unused {p : Params} {r : Bool} {w : Word}
    (hop : ¬((fieldOp w).toNat = 0 ∨ 7 ≤ (fieldOp w).toNat)) (hu : w &&& ~~~usedBits (fieldOp w).toNat ≠ 0) :
    classify p r w = .error .rsvdBits := by
  simp only [classify, decode_of_unused hop hu, decodeCause]

/-- A word with no unused bit set is its opcode's command unless the command's value check fails (R118, R119). -/
theorem classify_of_command {p : Params} {r : Bool} {w : Word} {i : Instr} (h : instrOf (fieldsOf w) = some i)
    (hu : w &&& ~~~usedBits (fieldOp w).toNat = 0) :
    classify p r w = (operandCheck p r i).elim (.ok i) .error := by
  simp only [classify, decode_of_command h, if_pos hu]
  cases operandCheck p r i <;> rfl

/-- READMB's range check with the bound as the rule writes it, the last address (R118, R192). -/
theorem readmbCheck_eq (a : VAddr) (n : BitVec 3) : readmbCheck a n =
    if n.toNat = 0 ∨ 5 ≤ n.toNat then some .count
    else if 0x7F < a.toNat + n.toNat - 1 then some .addr
    else none := by
  unfold readmbCheck
  split
  · rfl
  · next h => simp only [show 128 < a.toNat + n.toNat ↔ 0x7F < a.toNat + n.toNat - 1 by omega]

section
variable {s : State} {w : Word} {rest : List HostInput} (hp : s.phase = .idle) (hw : s.inputs = .present w :: rest)
include hp hw

/-- In IDLE a word that fails a check is refused with that check's cause (R119, R285). -/
theorem step_of_classify_error {c : IllegalCause} (h : classify s.cfg s.initDone w = .error c) :
    step s = .next (({ s with inputs := rest } : State).illegal c) := by
  have hp' : ({ s with inputs := rest } : State).phase = .idle := hp
  rw [step_present hw]
  unfold classify at h
  split at h
  · next e hd =>
    cases h
    simp only [presentWord, hp, hd]
  · next i hd =>
    rw [presentWord_idle hp' hd, exec_idle i _ hp']
    split at h
    · next c' hc =>
      cases h
      simp only [hc]
    · cases h

/-- In IDLE a word that passes every check is accepted as its command (R31). -/
theorem step_of_classify_ok {i : Instr} (h : classify s.cfg s.initDone w = .ok i) :
    step s = .next (startOf i (({ s with inputs := rest } : State).accept (latchOf i))) := by
  have hp' : ({ s with inputs := rest } : State).phase = .idle := hp
  rw [step_present hw]
  unfold classify at h
  split at h
  · cases h
  · next j hd =>
    rw [presentWord_idle hp' hd, exec_idle j _ hp']
    split at h
    · cases h
    · next hc =>
      cases h
      simp only [hc]

end

@[simp] theorem startOf_phase (i : Instr) (t : State) : (startOf i t).phase = t.phase := by cases i <;> rfl
@[simp] theorem startOf_inputs (i : Instr) (t : State) : (startOf i t).inputs = t.inputs := by cases i <;> rfl

/-! ### The fields of a word as the statements write them -/

section
variable (w : Word)

theorem fieldAddr_eq_setWidth : fieldAddr w = (w >>> 8).setWidth 7 := BitVec.eq_of_toNat_eq (by simp [fieldAddr])
theorem fieldData_eq_setWidth : fieldData w = w.setWidth 8 := BitVec.eq_of_toNat_eq (by simp [fieldData])
theorem fieldN_eq_setWidth : fieldN w = (w >>> 24).setWidth 3 := BitVec.eq_of_toNat_eq (by simp [fieldN])
theorem fieldE_eq_setWidth : fieldE w = (w >>> 24).setWidth 1 := BitVec.eq_of_toNat_eq (by simp [fieldE])
theorem fieldDrv_eq_setWidth : fieldDrv w = (w >>> 2).setWidth 2 := BitVec.eq_of_toNat_eq (by simp [fieldDrv])
theorem fieldSns_eq_setWidth : fieldSns w = w.setWidth 2 := BitVec.eq_of_toNat_eq (by simp [fieldSns])

end

/-! ### The assembler -/

/-- A value that fits its field is the field's number (R121). -/
theorem toNat_ofNat_of_fits {k x : Nat} (h : x < 2 ^ k) : (BitVec.ofNat k x).toNat = x :=
  (BitVec.toNat_ofNat x k).trans (Nat.mod_eq_of_lt h)

/-- READMB, READ16 and READ32 are the mnemonics that become a READMB, each with a count of 1 to 4 (R121, R122). -/
theorem assemble_readmb_count {op : AsmOp} {vs : List Nat} {a : VAddr} {n : BitVec 3}
    (h : assemble op vs = some (.readmb a n)) : 1 ≤ n.toNat ∧ n.toNat ≤ 4 := by
  unfold assemble at h
  split at h
  case h_3 addr m =>
    obtain ⟨⟨-, h1, h4⟩, -, rfl⟩ := by simpa using h
    rw [toNat_ofNat_of_fits (by omega)]
    exact ⟨h1, h4⟩
  case h_7 addr =>
    obtain ⟨-, -, rfl⟩ := by simpa using h
    decide
  case h_8 addr =>
    obtain ⟨-, -, rfl⟩ := by simpa using h
    decide
  all_goals simp at h

/-! ### The obligations -/

/-- Settles O2: a command's word is the word that decodes to it. -/
theorem decodeOfEncodeIsTheCommand : Obligations.DecodeOfEncodeIsTheCommand :=
  fun _ => decode_eq_ok_iff.mpr rfl

/-- Settles O3: a word that decodes to a command is that command's word. -/
theorem encodeOfDecodeIsTheWord : Obligations.EncodeOfDecodeIsTheWord :=
  fun _ _ => decode_eq_ok_iff.mp

/-- Settles O4: such a word fails the first check. -/
theorem reservedOpcodeIsRefused : Obligations.ReservedOpcodeIsRefused := by
  intro s w rest hp hw hop
  rw [← fieldOp_toNat] at hop
  exact step_of_classify_error hp hw (classify_of_reserved hop)

/-- Settles O5: such a word passes the first check and fails the second. -/
theorem reservedBitIsRefused : Obligations.ReservedBitIsRefused := by
  intro s w rest hp hw hlo hhi hu
  rw [← fieldOp_toNat] at hlo hhi hu
  exact step_of_classify_error hp hw (classify_of_unused (by omega) hu)

/-- Settles O6: past the checks of the bits each command has its own value check, and its opcode decides against the
conditions of the other commands (the `rfl` that ends each case); the step in IDLE reports what the checks say. -/
theorem firstFailingCheckIsTheCause : Obligations.FirstFailingCheckIsTheCause := by
  refine ⟨fun p r w => ?_, fun s w rest hp hw => ⟨fun c hc => step_of_classify_error hp hw hc, fun i hi => ?_⟩⟩
  · rw [← fieldOp_toNat]
    by_cases hr : (fieldOp w).toNat = 0 ∨ 7 ≤ (fieldOp w).toNat
    · exact (classify_of_reserved hr).trans (if_pos hr).symm
    rw [if_neg hr]
    by_cases hu : w &&& ~~~usedBits (fieldOp w).toNat ≠ 0
    · exact (classify_of_unused hr hu).trans (if_pos hu).symm
    rw [if_neg hu]
    obtain ⟨i, hi⟩ := instrOf_isSome (l := fieldsOf w) hr
    rw [classify_of_command hi (not_not.mp hu)]
    obtain ⟨hop, h⟩ := instrOf_eq_some_iff.mp hi
    rw [show fieldOp w = opcodeOf i from hop, ← fieldAddr_eq_setWidth, ← fieldData_eq_setWidth,
      ← fieldN_eq_setWidth, ← fieldE_eq_setWidth, ← fieldDrv_eq_setWidth, ← fieldSns_eq_setWidth]
    cases i with
    | writev a d =>
      obtain ⟨rfl, rfl⟩ := h
      by_cases hprot : fieldAddr w = p.vregCtrl ∨ fieldAddr w = p.vregLed
      · simp only [operandCheck, writevCheck, fieldsOf, hprot, if_true, and_true]
        rfl
      · simp only [operandCheck, writevCheck, fieldsOf, hprot, if_false, and_false]
        rfl
    | readv a =>
      cases h
      rfl
    | readmb a n =>
      obtain ⟨rfl, rfl⟩ := h
      have hn : w.toNat / 2 ^ 24 % 8 = (fieldN w).toNat := (fieldN_toNat w).symm
      have ha : w.toNat / 2 ^ 8 % 128 = (fieldAddr w).toNat := (fieldAddr_toNat w).symm
      rw [hn, ha]
      by_cases hcount : (fieldN w).toNat = 0 ∨ 5 ≤ (fieldN w).toNat
      · simp only [operandCheck, readmbCheck_eq, fieldsOf, hcount, if_true, and_true]
        rfl
      · by_cases haddr : 0x7F < (fieldAddr w).toNat + (fieldN w).toNat - 1
        · simp only [operandCheck, readmbCheck_eq, fieldsOf, hcount, haddr, if_true, if_false, and_true, and_false]
          rfl
        · simp only [operandCheck, readmbCheck_eq, fieldsOf, hcount, haddr, if_false, and_false]
          rfl
    | init => rfl
    | setled e drv sns =>
      obtain ⟨rfl, rfl, rfl⟩ := h
      rfl
    | startmeas =>
      cases r with
      | false => rfl
      | true => rfl
  · refine ⟨_, step_of_classify_ok hp hw hi, ?_⟩
    exact ⟨startOf_phase i _, startOf_cmd i _, by rw [startOf_rsp]; rfl, startOf_inputs i _,
      (startOf_keepsTransport i _).2⟩

/-- Settles O1: the legal words are computed by the encoder, the causes of the others by the checks. -/
theorem workedEncodingsOfTheSpec : Obligations.WorkedEncodingsOfTheSpec :=
  ⟨decode_and_encode rfl, decode_and_encode rfl, decode_and_encode rfl, decode_and_encode rfl, decode_and_encode rfl,
    decode_and_encode rfl, decode_and_encode rfl, decode_and_encode rfl, rfl, rfl, rfl, rfl⟩

/-- Settles O60: a value that fits passes its mnemonic's check, one that does not fails it. -/
theorem assembledCommandsFitTheirFields : Obligations.AssembledCommandsFitTheirFields := by
  refine ⟨fun _ _ _ _ => assemble_readmb_count, fun addr data ha hd => ?_, fun addr ha => ?_,
    fun addr n ha h1 h4 => ?_, fun e drv sns he hd hs => ?_, ⟨rfl, rfl⟩, fun addr ha data n => ?_,
    fun addr data hd => if_neg (by omega), fun addr n hn => if_neg (by omega), fun e drv sns h => if_neg (by omega),
    fun drv sns h => if_neg (by omega), fun addr => ?_, fun drv sns => ?_, rfl⟩
  · exact ⟨_, _, if_pos ⟨ha, hd⟩, toNat_ofNat_of_fits (by omega), toNat_ofNat_of_fits (by omega)⟩
  · exact ⟨_, if_pos ha, toNat_ofNat_of_fits (by omega)⟩
  · exact ⟨_, _, if_pos ⟨ha, h1, h4⟩, toNat_ofNat_of_fits (by omega), toNat_ofNat_of_fits (by omega)⟩
  · exact ⟨_, _, _, if_pos ⟨he, hd, hs⟩, toNat_ofNat_of_fits (by omega), toNat_ofNat_of_fits (by omega),
      toNat_ofNat_of_fits (by omega)⟩
  · exact ⟨if_neg (by omega), if_neg (by omega), if_neg (by omega)⟩
  · simp [assemble]
  · simp [assemble]

end Sys2Proof.Machine
end

section
/-! Physical access (spec 40_physical_access.md R145 to R148): a polling step whose STATUS reads miss its condition.
`pollStep_missed` says what one such read does, `runSteps_misses` what any number of them do while the budget lasts; the
one that spends the budget is the same step with the other branch of `pollMissed`. -/

namespace Sys2Proof.Machine

/-! ### One STATUS read that misses -/

/-- A polling step of a virtual access is a step of POLL for its condition (R161, R171). -/
theorem runAccess_poll {acc : Access} {s : State} {c : PollCond} (hc : acc.polls s.step = some c)
    (done : State → State) : ∃ seen, runAccess acc done s = .next (s.pollStep c seen) := by
  cases acc with
  | write a d =>
    simp only [Access.polls] at hc
    split_ifs at hc with h15 h3 <;> cases hc
    · rcases h15 with h | h <;> exact ⟨_, by simp only [runAccess, vwriteStep, h]; rfl⟩
    · exact ⟨_, by simp only [runAccess, vwriteStep, h3]; rfl⟩
  | read a =>
    simp only [Access.polls] at hc
    split_ifs at hc with h1 h3 <;> cases hc
    · exact ⟨_, by simp only [runAccess, vreadStep, h1]; rfl⟩
    · exact ⟨_, by simp only [runAccess, vreadStep, h3]; rfl⟩

/-- After a miss POLL reads again while the budget lasts (R145). -/
theorem pollMissed_of_lt {s : State} (h : s.pcnt.toNat < s.cfg.pollBudget) : s.pollMissed = s := if_pos h

/-- The miss that spends the budget ends the command with TIMEOUT (R146). -/
theorem pollMissed_of_le {s : State} (h : s.cfg.pollBudget ≤ s.pcnt.toNat) :
    s.pollMissed = s.stall .timeout s.step s.sub 0 := if_neg (Nat.not_lt.mpr h)

section
variable {s : State} {a : Answer} {k : Nat} {rest : List Answer} {c : PollCond}

/-- A STATUS read that misses the condition is recorded and counted, and the budget decides (R145, R148). -/
theorem pollStep_missed (ht : s.tape = a :: rest) (hm : Answer.misses s.cfg c a = true) (seen : State → State) :
    ∃ e, statusEvent s.cfg a = [e] ∧ s.pollStep c seen = (afterPollRead s rest s.free e).pollMissed := by
  cases a with
  | ok b =>
    have hb : c.holds s.cfg b = false := by simpa [Answer.misses] using hm
    refine ⟨_, rfl, ?_⟩
    simp only [State.pollStep, State.physRead, answer_cons s _ _ ht, hb]
    rfl
  | fail k =>
    obtain ⟨hr, hk⟩ : s.cfg.pollXfail = .retry ∧ k < 2 ^ s.cfg.xerrW := by simpa [Answer.misses] using hm
    refine ⟨_, rfl, ?_⟩
    simp only [State.pollStep, State.physRead, answer_cons s _ _ ht, narrowXerr_of_lt hk, hr]
    rfl
  | silent => cases hm

/-- Under ABORT a STATUS read that fails ends the command with TRANSPORT and its code (R148). -/
theorem pollStep_aborted (ht : s.tape = .fail k :: rest) (hk : k < 2 ^ s.cfg.xerrW)
    (ha : s.cfg.pollXfail = .abort) (seen : State → State) :
    s.pollStep c seen =
      (afterPollRead s rest s.free (.rdFail s.cfg.devAddr s.cfg.pregStatus k)).stall .transport s.step s.sub k := by
  simp only [State.pollStep, State.physRead, answer_cons s _ _ ht, narrowXerr_of_lt hk, ha]
  rfl

end

/-! ### STATUS reads that miss, one after the other -/

/-- The state of a polling step after the STATUS reads `missed`, with `rest` left on the tape. -/
def afterMisses (s : State) (missed rest : List Answer) : State :=
  { s with pcnt := BitVec.ofNat 16 missed.length, tape := rest,
           trace := (missed.flatMap (statusEvent s.cfg)).reverse ++ s.trace }

/-- A polling step starts with no read made (R33). -/
theorem afterMisses_nil {s : State} {rest : List Answer} (h0 : s.pcnt = 0) (ht : s.tape = rest) :
    afterMisses s [] rest = s := by
  subst ht
  exact congrArg (fun p => { s with pcnt := p }) h0.symm

/-- One more read. -/
theorem afterPollRead_afterMisses {s : State} {missed rest : List Answer} {a : Answer} {e : XEvent}
    (he : statusEvent s.cfg a = [e]) :
    afterPollRead (afterMisses s missed (a :: rest)) rest s.free e = afterMisses s (missed ++ [a]) rest := by
  simp [afterPollRead, afterMisses, he, BitVec.ofNat_add]

/-- `pcnt` counts the reads: the budget fits it (R11, R33). -/
theorem afterMisses_pcnt_toNat {s : State} {missed : List Answer} (hl : missed.length ≤ s.cfg.pollBudget)
    (rest : List Answer) : (afterMisses s missed rest).pcnt.toNat = missed.length :=
  Nat.mod_eq_of_lt (Nat.lt_succ_of_le (hl.trans (pollBudget_le s.cfg)))

section
variable {i : Instr} {acc : Access} {s : State} (h : InAccess i acc s) {c : PollCond}
  (hc : acc.polls s.step = some c)
include h hc

/-- After the reads `missed`, one more that misses. -/
theorem runSteps_misses_concat {missed rest : List Answer} {a : Answer}
    (hr : runSteps missed.length s = .next (afterMisses s missed (a :: rest))) (hm : Answer.misses s.cfg c a = true) :
    runSteps (missed ++ [a]).length s = .next (afterMisses s (missed ++ [a]) rest).pollMissed := by
  have hu : InAccess i acc (afterMisses s missed (a :: rest)) := ⟨h.alone, h.run, h.latched, h.sub, h.access⟩
  obtain ⟨seen, hseen⟩ := runAccess_poll (s := afterMisses s missed (a :: rest)) hc (accessDone i)
  obtain ⟨e, he, hpoll⟩ := pollStep_missed (s := afterMisses s missed (a :: rest)) rfl hm seen
  have hstep : step (afterMisses s missed (a :: rest)) = .next (afterMisses s (missed ++ [a]) rest).pollMissed := by
    rw [hu.step, hseen, hpoll]
    exact congrArg (fun t : State => Host.Outcome.next t.pollMissed) (afterPollRead_afterMisses (s := s) he)
  rw [List.length_append, runSteps_add _ _ hr]
  exact runSteps_next 0 hstep

/-- While the budget lasts, reads that miss leave the engine polling (R145, R148). -/
theorem runSteps_misses (h0 : s.pcnt = 0) {missed rest : List Answer}
    (hm : missed.all (Answer.misses s.cfg c) = true) (hl : missed.length < s.cfg.pollBudget)
    (ht : s.tape = missed ++ rest) : runSteps missed.length s = .next (afterMisses s missed rest) := by
  induction missed using List.reverseRecOn generalizing rest with
  | nil => exact congrArg Host.Outcome.next (afterMisses_nil h0 ht).symm
  | append_singleton missed a ih =>
    obtain ⟨hms, ha⟩ : missed.all (Answer.misses s.cfg c) = true ∧ Answer.misses s.cfg c a = true := by simpa using hm
    have hlen : missed.length < s.cfg.pollBudget := Nat.lt_of_succ_lt (by simpa using hl)
    have hr := ih (rest := a :: rest) hms hlen (by simpa using ht)
    rw [runSteps_misses_concat h hc hr ha,
      pollMissed_of_lt (by rwa [afterMisses_pcnt_toNat hl.le])]

/-- The read that spends the budget ends the command (R146). -/
theorem runSteps_misses_spent (h0 : s.pcnt = 0) {missed rest : List Answer}
    (hm : missed.all (Answer.misses s.cfg c) = true) (hl : missed.length = s.cfg.pollBudget)
    (ht : s.tape = missed ++ rest) :
    runSteps missed.length s = .next ((afterMisses s missed rest).stall .timeout s.step s.sub 0) := by
  obtain rfl | ⟨missed, a, rfl⟩ := missed.eq_nil_or_concat'
  · exact absurd hl (Nat.ne_of_lt (pollBudget_pos s.cfg))
  · obtain ⟨hms, ha⟩ : missed.all (Answer.misses s.cfg c) = true ∧ Answer.misses s.cfg c a = true := by simpa using hm
    have hlen : missed.length < s.cfg.pollBudget := by simp [← hl]
    have hr := runSteps_misses h hc h0 (rest := a :: rest) hms hlen (by simpa using ht)
    rw [runSteps_misses_concat h hc hr ha, pollMissed_of_le (by rw [afterMisses_pcnt_toNat hl.le]; exact hl.ge)]
    rfl

end

/-! ### The obligations -/

/-- Settles O34: every read but the last leaves the engine polling, and the last spends the budget. -/
theorem pollTimesOutAfterExactlyItsBudget : Obligations.PollTimesOutAfterExactlyItsBudget := by
  intro i acc c missed rest s hal hp hcmd hs ha hc h0 hm hl ht
  have hrun := runSteps_misses_spent ⟨hal, hp, hcmd, hs, ha⟩ hc h0 hm hl ht
  rw [← hl, hrun]
  rfl

/-- Settles O36: under RETRY a failed read is one that misses, and the budget decides. -/
theorem failedStatusReadRetriesOrAborts : Obligations.FailedStatusReadRetriesOrAborts := by
  intro i acc k c rest s hp hcmd hs ha hk ht hcode
  obtain ⟨seen, hseen⟩ := runAccess_poll hk (accessDone i)
  rw [exec_run i acc s hp hcmd ha hs, hseen]
  have retried (hr : s.cfg.pollXfail = .retry) : s.pollStep k seen =
      (afterPollRead s rest s.free (.rdFail s.cfg.devAddr s.cfg.pregStatus c)).pollMissed := by
    obtain ⟨e, he, hpoll⟩ := pollStep_missed ht (by simp [Answer.misses, hr, hcode]) seen
    obtain rfl := List.singleton_inj.mp he
    exact hpoll
  refine ⟨fun hab => ?_, fun hr hlt => ?_, fun hr hle => ?_⟩
  · rw [pollStep_aborted ht hcode hab]
    rfl
  · rw [retried hr, pollMissed_of_lt hlt]
    rfl
  · rw [retried hr, pollMissed_of_le hle]
    rfl

end Sys2Proof.Machine
end

section
/-! Virtual registers (spec 41_virtual_register_protocol.md): WRITEV and READV from acceptance to their OK end, what
they leave unchanged, and the order of a virtual write's bytes along every run. The handshake is followed for any
command's virtual access: each handshake step has an equation for its one transaction (`runAccess_firstPoll` and those
after it) and a run in which the chip answers it (`runSteps_poll` for the steps that poll), and from these runs each kind
of virtual access is put together (`runSteps_vwrite`, `runSteps_vread`). -/

namespace Sys2Proof.Machine

/-! ### Acceptance -/

section
variable {i : Instr} {s : State} (hp : s.phase = .idle)
include hp

/-- In IDLE a command that fails its value check is refused (R118, R285). -/
theorem exec_refused {c : IllegalCause} (hk : operandCheck s.cfg s.initDone i = some c) :
    exec i s = .next (s.illegal c) := by
  rw [exec_idle i s hp, hk]

/-- In IDLE a command that passes its value check is accepted (R31). -/
theorem exec_accepted (hk : operandCheck s.cfg s.initDone i = none) :
    exec i s = .next (startOf i (s.accept (latchOf i))) := by
  rw [exec_idle i s hp, hk]

end

section
variable {p : Params} {r : Bool} {a : VAddr} {d : Byte}

/-- WRITEV's value check refuses the chip controller's registers (R166). -/
theorem operandCheck_writev_protected (h : a = p.vregCtrl ∨ a = p.vregLed) :
    operandCheck p r (.writev a d) = some .prot := if_pos h

/-- WRITEV's value check lets every other register pass (R166). -/
theorem operandCheck_writev_unprotected (hc : a ≠ p.vregCtrl) (hl : a ≠ p.vregLed) :
    operandCheck p r (.writev a d) = none := if_neg (not_or.mpr ⟨hc, hl⟩)

end

/-- The state right after an IDLE engine accepted the command `i` from its word, the only act listed (R31, R59). -/
def afterAccept (s : State) (i : Instr) : State := startOf i (({ s with inputs := [] } : State).accept (latchOf i))

/-! ### The transaction of each handshake step -/

section
variable {s : State} (done : State → State)

/-- Step 1 polls until TX_PENDING is clear (R161, R171). -/
theorem runAccess_firstPoll (acc : Access) (h : s.step = 1) :
    runAccess acc done s = .next (s.pollStep .txClear (·.toTransfer 2)) := by
  cases acc <;> simp only [runAccess, vwriteStep, vreadStep, h] <;> rfl

/-- Step 2 writes the address byte (R161, R171). -/
theorem runAccess_addressWrite (acc : Access) (h : s.step = 2) :
    runAccess acc done s = .next (s.writeStep acc.addressByte (·.toPoll 3)) := by
  cases acc <;> simp only [runAccess, vwriteStep, vreadStep, h] <;> rfl

/-- Step 3 polls until the chip has taken the address byte (R161, R171). -/
theorem runAccess_secondPoll (acc : Access) (h : s.step = 3) :
    runAccess acc done s = .next (s.pollStep acc.latched (·.toTransfer 4)) := by
  cases acc <;> simp only [runAccess, vwriteStep, vreadStep, h] <;> rfl

/-- Step 4 of a virtual write writes the data byte (R161). -/
theorem runAccess_dataWrite (a : VAddr) (d : Byte) (h : s.step = 4) :
    runAccess (.write a d) done s = .next (s.writeStep d (·.toPoll 5)) := by
  simp only [runAccess, vwriteStep, h]
  rfl

/-- Step 5 of a virtual write polls until TX_PENDING is clear again (R161). -/
theorem runAccess_lastPoll (a : VAddr) (d : Byte) (h : s.step = 5) :
    runAccess (.write a d) done s = .next (s.pollStep .txClear done) := by
  simp only [runAccess, vwriteStep, h]
  rfl

/-- Step 4 of a virtual read reads READ (R171). -/
theorem runAccess_dataRead (a : VAddr) (h : s.step = 4) :
    runAccess (.read a) done s = .next (s.readStep done) := by
  simp only [runAccess, vreadStep, h]
  rfl

end

/-! ### Where an access stands -/

/-- The state at step `k` of its access, with `p` STATUS reads made there, the answers `tp` to come and the trace
`tr`. -/
def atPoint (s : State) (k : BitVec 3) (p : BitVec 16) (tp : List Answer) (tr : List XEvent) : State :=
  atStep { s with tape := tp } k p tr

theorem InAccess.atPoint {i : Instr} {acc : Access} {s : State} (h : InAccess i acc s) (k : BitVec 3) (p : BitVec 16)
    (tp : List Answer) (tr : List XEvent) : InAccess i acc (atPoint s k p tp tr) :=
  ⟨h.alone, h.run, h.latched, h.sub, h.access⟩

theorem InAccess.afterMisses {i : Instr} {acc : Access} {s : State} (h : InAccess i acc s)
    (missed rest : List Answer) : InAccess i acc (afterMisses s missed rest) :=
  ⟨h.alone, h.run, h.latched, h.sub, h.access⟩

/-- A state stands where its own registers say. -/
theorem eq_atPoint {s : State} {k : BitVec 3} {p : BitVec 16} {tp : List Answer} {tr : List XEvent} (hk : s.step = k)
    (hp : s.pcnt = p) (ht : s.tape = tp) (htr : s.trace = tr) : s = atPoint s k p tp tr := by
  subst hk hp ht htr
  rfl

/-- A word presented to an IDLE engine: its command is accepted, and its first access stands at step 1 (R31). -/
theorem runSteps_accepted {i : Instr} {s : State} {tp : List Answer} (hp : s.phase = .idle)
    (hw : s.inputs = [.present (encode i)]) (hk : operandCheck s.cfg s.initDone i = none) (ht : s.tape = tp) (n : Nat) :
    runSteps (n + 1) s = runSteps n (atPoint (afterAccept s i) 1 0 tp s.trace) := by
  have hstep : step s = .next (afterAccept s i) := by
    rw [stepRunsThePresentedCommand s _ _ i hp hw (decodeOfEncodeIsTheCommand i)]
    exact exec_accepted (s := { s with inputs := [] }) hp hk
  obtain ⟨htape, htrace⟩ := startOf_keepsTransport i (({ s with inputs := [] } : State).accept (latchOf i))
  have hpoint : afterAccept s i = atPoint (afterAccept s i) 1 0 tp s.trace :=
    eq_atPoint (by simp [afterAccept]) (by simp [afterAccept]) (htape.trans ht) htrace
  rw [runSteps_next n hstep, ← hpoint]

/-! ### One handshake step, all its transactions answered -/

section
variable {i : Instr} {acc : Access} {s : State} (h : InAccess i acc s)
include h

/-- A polling step: the STATUS reads that miss, then the one that shows the condition (R145, R146). -/
theorem runSteps_poll {c : PollCond} (hc : acc.polls s.step = some c) (h0 : s.pcnt = 0) {seen : State → State}
    (hseen : ∀ u : State, u.step = s.step → runAccess acc (accessDone i) u = .next (u.pollStep c seen))
    {q : PollAnswers} (hq : q.good s.cfg c = true) (n : Nat) {rest : List Answer} (ht : s.tape = q.answers ++ rest) :
    runSteps (q.answers.length + n) s = runSteps n (seen (afterMisses s q.answers rest)) := by
  obtain ⟨hmiss, hlt, hhit⟩ : q.missed.all (Answer.misses s.cfg c) = true
      ∧ q.missed.length < s.cfg.pollBudget ∧ c.holds s.cfg q.hit = true := by
    simpa only [PollAnswers.good, Bool.and_eq_true, decide_eq_true_eq] using hq
  have hmissed : runSteps q.missed.length s = .next (afterMisses s q.missed (.ok q.hit :: rest)) :=
    runSteps_misses h hc h0 hmiss hlt (ht.trans (List.append_assoc _ _ _))
  have hshown : (afterMisses s q.missed (.ok q.hit :: rest)).pollStep c seen = seen (afterMisses s q.answers rest) := by
    rw [pollStep_ok (s := afterMisses s q.missed (.ok q.hit :: rest)) rfl hhit]
    exact congrArg seen (afterPollRead_afterMisses (s := s) rfl)
  have hstep : step (afterMisses s q.missed (.ok q.hit :: rest)) = .next (seen (afterMisses s q.answers rest)) := by
    rw [(h.afterMisses _ _).step, hseen (afterMisses s _ _) rfl, hshown]
  have hlen : q.answers.length + n = q.missed.length + (n + 1) := by
    simp only [PollAnswers.answers, List.length_append, List.length_singleton]
    omega
  rw [hlen, runSteps_add _ _ hmissed, runSteps_next n hstep]

/-- Step 1, TX_PENDING clear at last (R161, R171). -/
theorem runSteps_firstPoll {q : PollAnswers} (hq : q.good s.cfg .txClear = true) (n : Nat) (rest : List Answer)
    (tr : List XEvent) :
    runSteps (q.answers.length + n) (atPoint s 1 0 (q.answers ++ rest) tr)
      = runSteps n (atPoint s 2 (BitVec.ofNat 16 q.answers.length) rest ((q.events s.cfg).reverse ++ tr)) :=
  runSteps_poll (h.atPoint _ _ _ _) (by cases acc <;> rfl) rfl (fun _ => runAccess_firstPoll _ acc) hq n rfl

/-- Step 3, the address byte taken at last (R161, R171). -/
theorem runSteps_secondPoll {q : PollAnswers} (hq : q.good s.cfg acc.latched = true) (n : Nat) (rest : List Answer)
    (tr : List XEvent) :
    runSteps (q.answers.length + n) (atPoint s 3 0 (q.answers ++ rest) tr)
      = runSteps n (atPoint s 4 (BitVec.ofNat 16 q.answers.length) rest ((q.events s.cfg).reverse ++ tr)) :=
  runSteps_poll (h.atPoint _ _ _ _) (by cases acc <;> rfl) rfl (fun _ => runAccess_secondPoll _ acc) hq n rfl

/-- Step 2: the address byte is sent (R161, R171). -/
theorem runSteps_addressWrite (n : Nat) (p : BitVec 16) (b : Byte) (rest : List Answer) (tr : List XEvent) :
    runSteps (n + 1) (atPoint s 2 p (.ok b :: rest) tr)
      = runSteps n (atPoint s 3 0 rest (.wrOk s.cfg.devAddr s.cfg.pregWrite acc.addressByte :: tr)) := by
  refine runSteps_next n ?_
  rw [(h.atPoint _ _ _ _).step, runAccess_addressWrite _ _ rfl, writeStep_ok (rest := rest) rfl]
  rfl

end

section
variable {i : Instr} {a : VAddr} {s : State} (n : Nat) (p : BitVec 16) (b : Byte) (rest : List Answer)
  (tr : List XEvent)

/-- Step 4 of a virtual write: the data byte is sent (R161). -/
theorem runSteps_dataWrite {d : Byte} (h : InAccess i (.write a d) s) :
    runSteps (n + 1) (atPoint s 4 p (.ok b :: rest) tr)
      = runSteps n (atPoint s 5 0 rest (.wrOk s.cfg.devAddr s.cfg.pregWrite d :: tr)) := by
  refine runSteps_next n ?_
  rw [(h.atPoint _ _ _ _).step, runAccess_dataWrite _ _ _ rfl, writeStep_ok (rest := rest) rfl]
  rfl

/-- Step 5 of a virtual write, TX_PENDING clear again at last (R161). -/
theorem runSteps_lastPoll {d : Byte} (h : InAccess i (.write a d) s) {q : PollAnswers}
    (hq : q.good s.cfg .txClear = true) :
    runSteps (q.answers.length + n) (atPoint s 5 0 (q.answers ++ rest) tr)
      = runSteps n (accessDone i
          (atPoint s 5 (BitVec.ofNat 16 q.answers.length) rest ((q.events s.cfg).reverse ++ tr))) :=
  runSteps_poll (h.atPoint _ _ _ _) rfl rfl (fun _ => runAccess_lastPoll _ a d) hq n rfl

/-- Step 4 of a virtual read: READ gives VBYTE its byte (R171). -/
theorem runSteps_dataRead (h : InAccess i (.read a) s) :
    runSteps (n + 1) (atPoint s 4 p (.ok b :: rest) tr)
      = runSteps n (accessDone i
          { atPoint s 4 p rest (.rdOk s.cfg.devAddr s.cfg.pregRead b :: tr) with vbyte := b }) := by
  refine runSteps_next n ?_
  rw [(h.atPoint _ _ _ _).step, runAccess_dataRead _ _ rfl, readStep_ok (rest := rest) rfl]
  rfl

end

/-! ### Virtual accesses that succeed -/

/-- A virtual write: its five handshake steps, each answered (R161). -/
theorem runSteps_vwrite {i : Instr} {a : VAddr} {d : Byte} {s : State} (h : InAccess i (.write a d) s)
    {w : WriteAnswers} (hw : w.good s.cfg = true) (n : Nat) (rest : List Answer) (tr : List XEvent) :
    runSteps (w.answers.length + n) (atPoint s 1 0 (w.answers ++ rest) tr)
      = runSteps n (accessDone i (atPoint s 5 (BitVec.ofNat 16 w.poll5.answers.length) rest
          ((w.events s.cfg a d).reverse ++ tr))) := by
  obtain ⟨h1, h3, h5⟩ : w.poll1.good s.cfg .txClear = true ∧ w.poll3.good s.cfg .txSet = true
      ∧ w.poll5.good s.cfg .txClear = true := by simpa only [WriteAnswers.good, Bool.and_eq_true] using hw
  have hlen : w.answers.length + n
      = w.poll1.answers.length + (w.poll3.answers.length + (w.poll5.answers.length + n + 1) + 1) := by
    simp only [WriteAnswers.answers, List.length_append, List.length_cons]
    omega
  have htape : w.answers ++ rest
      = w.poll1.answers ++ .ok w.ack2 :: (w.poll3.answers ++ .ok w.ack4 :: (w.poll5.answers ++ rest)) := by
    simp only [WriteAnswers.answers, List.append_assoc, List.cons_append]
  have hevents : (w.events s.cfg a d).reverse ++ tr
      = (w.poll5.events s.cfg).reverse ++ .wrOk s.cfg.devAddr s.cfg.pregWrite d
        :: ((w.poll3.events s.cfg).reverse ++ .wrOk s.cfg.devAddr s.cfg.pregWrite (Access.write a d).addressByte
          :: ((w.poll1.events s.cfg).reverse ++ tr)) := by
    simp [WriteAnswers.events, Access.addressByte]
  rw [hlen, htape, hevents, runSteps_firstPoll h h1, runSteps_addressWrite h, runSteps_secondPoll h h3,
    runSteps_dataWrite _ _ _ _ _ h, runSteps_lastPoll _ _ _ h h5]

/-- A virtual read: its four handshake steps, each answered (R171). -/
theorem runSteps_vread {i : Instr} {a : VAddr} {s : State} (h : InAccess i (.read a) s)
    {r : ReadAnswers} (hr : r.good s.cfg = true) (n : Nat) (rest : List Answer) (tr : List XEvent) :
    runSteps (r.answers.length + n) (atPoint s 1 0 (r.answers ++ rest) tr)
      = runSteps n (accessDone i { atPoint s 4 (BitVec.ofNat 16 r.poll3.answers.length) rest
          ((r.events s.cfg a).reverse ++ tr) with vbyte := r.data }) := by
  obtain ⟨h1, h3⟩ : r.poll1.good s.cfg .txClear = true ∧ r.poll3.good s.cfg .rxSet = true := by
    simpa only [ReadAnswers.good, Bool.and_eq_true] using hr
  have hlen : r.answers.length + n = r.poll1.answers.length + (r.poll3.answers.length + (n + 1) + 1) := by
    simp only [ReadAnswers.answers, List.length_append, List.length_cons, List.length_nil]
    omega
  have htape : r.answers ++ rest
      = r.poll1.answers ++ .ok r.ack2 :: (r.poll3.answers ++ .ok r.data :: rest) := by
    simp only [ReadAnswers.answers, List.append_assoc, List.cons_append, List.nil_append]
  have hevents : (r.events s.cfg a).reverse ++ tr
      = .rdOk s.cfg.devAddr s.cfg.pregRead r.data
        :: ((r.poll3.events s.cfg).reverse ++ .wrOk s.cfg.devAddr s.cfg.pregWrite (Access.read a).addressByte
          :: ((r.poll1.events s.cfg).reverse ++ tr)) := by
    simp [ReadAnswers.events, Access.addressByte]
  rw [hlen, htape, hevents, runSteps_firstPoll h h1, runSteps_addressWrite h, runSteps_secondPoll h h3,
    runSteps_dataRead _ _ _ _ _ h]

/-! ### What a command leaves unchanged -/

/-- `f` reads none of the registers that every command moves: the phase, the latch, the position, the response, the
transport's lists and the free-value counter. -/
def BlindToEngine {β : Type} (f : State → β) : Prop :=
  ∀ (s : State) (ph : Phase) (l : Latch) (j : BitVec 2) (k : BitVec 3) (p : BitVec 16) (r : Response)
    (tp : List Answer) (fr : Nat) (tr : List XEvent),
    f { s with phase := ph, cmd := l, sub := j, step := k, pcnt := p, rsp := r, tape := tp, free := fr, trace := tr }
      = f s

section
variable {β : Type} {f : State → β} (hf : BlindToEngine f)
include hf

/-- One step of a virtual access changes nothing else but VBYTE, at the end of a read, and what follows its end. -/
theorem AccessStep.keeps {acc : Access} {done : State → State} {s t : State} (h : AccessStep acc done s (.next t))
    (hv : ∀ a, acc = .read a → ∀ (u : State) (b : Byte), f { u with vbyte := b } = f u)
    (hd : ∀ u : State, f (done u) = f u) : f t = f s := by
  cases h with
  | written a d tp fr e => exact (hd _).trans (hf s s.phase s.cmd s.sub s.step _ s.rsp tp fr _)
  | got a b tp fr ha =>
    exact (hd _).trans ((hv a ha _ b).trans (hf s s.phase s.cmd s.sub s.step s.pcnt s.rsp tp fr _))
  | _ => exact hf s _ _ _ _ _ _ _ _ _

/-- A command at a state changes nothing else but VBYTE, where it reads, and what its own lines change. -/
theorem exec_keeps {i : Instr} {s t : State} (h : exec i s = .next t) (hs : ∀ u : State, f (startOf i u) = f u)
    (hv : ∀ a, s.cmd = latchOf i → s.access = some (.read a) →
      ∀ (u : State) (b : Byte), f { u with vbyte := b } = f u)
    (hd : ∀ u : State, f (accessDone i u) = f u) : f t = f s := by
  cases hp : s.phase with
  | idle =>
    obtain ⟨c, rfl⟩ | ⟨-, rfl⟩ := exec_idle_inv hp h
    · exact hf s _ _ _ _ _ _ _ _ _
    · exact (hs _).trans (hf s _ _ _ _ _ _ _ _ _)
  | run =>
    obtain ⟨hc, -, acc, ha, hstep⟩ := exec_run_inv hp h
    exact hstep.keeps hf (fun a hr => hv a hc (hr ▸ ha)) hd

end

/-- What WRITEV does not change (R176), the parameters and the host's side included. -/
def writevFrame (s : State) : Word × Byte × Byte × Byte × Bool × Bool × Params × HostSession × List HostInput :=
  (s.acc, s.vbyte, s.pend, s.ctrlShadow, s.initDone, s.overrun, s.cfg, s.host, s.inputs)

/-- What READV does not change: all of that but VBYTE (R176). -/
def readvFrame (s : State) : Word × Byte × Byte × Bool × Bool × Params × HostSession × List HostInput :=
  (s.acc, s.pend, s.ctrlShadow, s.initDone, s.overrun, s.cfg, s.host, s.inputs)

/-- Neither is moved by every command (R31, R33, R50). -/
theorem writevFrame_blind : BlindToEngine writevFrame := fun _ _ _ _ _ _ _ _ _ _ => rfl
theorem readvFrame_blind : BlindToEngine readvFrame := fun _ _ _ _ _ _ _ _ _ _ => rfl

/-! ### The bytes of a virtual write -/

/-- What every step of the machine keeps holds after every run. -/
theorem runSteps_induction {P : State → Prop} (hstep : ∀ s t, P s → step s = .next t → P t) {k : Nat}
    {s t : State} (h : P s) (hr : runSteps k s = .next t) : P t := by
  induction k generalizing s with
  | zero =>
    cases hr
    exact h
  | succ k ih =>
    obtain ⟨u, hu, hk⟩ := runSteps_succ_inv hr
    exact ih (hstep s u h hu) hk

/-- Every run keeps the invariant and, with it, the handshake's order. -/
theorem runSteps_order {k : Nat} {s t : State} (hi : Inv s) (ho : HandshakeOrder s) (hr : runSteps k s = .next t) :
    HandshakeOrder t :=
  (runSteps_induction (P := fun u => Inv u ∧ HandshakeOrder u)
    (fun u v hu huv => ⟨everyStepKeepsTheInvariant u v hu.1 huv, everyStepKeepsTheHandshakeOrder u v hu.1 hu.2 huv⟩)
    ⟨hi, ho⟩ hr).2

/-- An event that shows a condition is an answered STATUS read (R145). -/
theorem XEvent.shows_iff {p : Params} {c : PollCond} {e : XEvent} :
    e.shows p c ↔ ∃ b, e = .rdOk p.devAddr p.pregStatus b ∧ c.holds p b = true := by
  constructor
  · intro h
    cases e with
    | rdOk dev r b =>
      obtain ⟨rfl, rfl, hb⟩ := h
      exact ⟨b, rfl, hb⟩
    | _ => exact h.elim
  · rintro ⟨b, rfl, hb⟩
    exact ⟨rfl, rfl, hb⟩

/-- A virtual write writes its address byte at step 2 and its data byte at step 4, and nothing else (R161). -/
theorem Access.request_write_eq_wr {p : Params} {a : VAddr} {d r v : Byte} {k : BitVec 3}
    (h : (Access.write a d).request p k = some (.wr r v)) : (k = 2 ∧ v = writeAddrByte a) ∨ (k = 4 ∧ v = d) := by
  rcases step_values k with rfl | rfl | rfl | rfl | rfl | rfl | rfl | rfl
  · cases h
  · cases h
  · obtain ⟨-, hv⟩ := XReq.wr.inj (Option.some.inj h)
    exact .inl ⟨rfl, hv.symm⟩
  · cases h
  · obtain ⟨-, hv⟩ := XReq.wr.inj (Option.some.inj h)
    exact .inr ⟨rfl, hv.symm⟩
  · cases h
  · cases h
  · cases h

/-- The trace right before an address byte (R162). -/
theorem orderedAt.before_address {p : Params} {acc : Access} {tr : List XEvent} (h : orderedAt p acc 2 tr) :
    ∃ b older, tr = .rdOk p.devAddr p.pregStatus b :: older ∧ b.getLsbD p.txBit.val = false := by
  obtain ⟨h2, -, -, -⟩ := h
  obtain ⟨e, older, rfl, he⟩ := h2 rfl
  obtain ⟨b, rfl, hb⟩ := XEvent.shows_iff.mp he
  exact ⟨b, older, rfl, by simpa [PollCond.holds, statusTx] using hb⟩

/-- The trace right before a virtual write's data byte (R162). -/
theorem orderedAt.before_data {p : Params} {a : VAddr} {d : Byte} {tr : List XEvent}
    (h : orderedAt p (.write a d) 4 tr) :
    ∃ b reads older,
      tr = .rdOk p.devAddr p.pregStatus b :: reads ++ .wrOk p.devAddr p.pregWrite (writeAddrByte a) :: older
      ∧ b.getLsbD p.txBit.val = true ∧ ∀ e ∈ reads, e.isStatusRead p := by
  obtain ⟨-, -, h4, -⟩ := h
  obtain ⟨e, since, rfl, he, reads, older, rfl, hreads⟩ := h4 rfl
  obtain ⟨b, rfl, hb⟩ := XEvent.shows_iff.mp he
  exact ⟨b, reads, older, rfl, hb, hreads⟩

/-! ### The obligations -/

/-- Settles O27: WRITEV is accepted, and makes its virtual write. -/
theorem writevRunsToOk : Obligations.WritevRunsToOk := by
  intro a d w rest s hp hh hin hctrl hled hw ht
  have h : InAccess (.writev a d) (.write a d) (afterAccept s (.writev a d)) :=
    ⟨⟨rfl, hh⟩, rfl, rfl, Nat.one_pos, rfl⟩
  rw [runSteps_accepted hp hin (operandCheck_writev_unprotected hctrl hled) ht, hp]
  exact runSteps_vwrite h hw 0 rest s.trace

/-- Settles O28: READV is accepted, and makes its virtual read. -/
theorem readvRunsToOk : Obligations.ReadvRunsToOk := by
  intro a r rest s hp hh hin hr ht
  have h : InAccess (.readv a) (.read a) (afterAccept s (.readv a)) :=
    ⟨⟨rfl, hh⟩, rfl, rfl, Nat.one_pos, rfl⟩
  rw [runSteps_accepted hp hin rfl ht, hp]
  exact runSteps_vread h hr 0 rest s.trace

/-- Settles O40: WRITEV's access is no read, so it keeps VBYTE too. -/
theorem writevAndReadvFrame : Obligations.WritevAndReadvFrame := by
  intro a d s t
  constructor
  · intro h
    have hwrite (hc : s.cmd = latchOf (.writev a d)) : s.access = some (.write a d) := by
      rw [State.access, hc, instrOf_latchOf]
    have hframe : writevFrame t = writevFrame s :=
      exec_keeps writevFrame_blind h (fun _ => rfl) (fun _ hc hr => nomatch (hwrite hc).symm.trans hr) (fun _ => rfl)
    simpa only [writevFrame, Prod.mk.injEq] using hframe
  · intro h
    have hframe : readvFrame t = readvFrame s :=
      exec_keeps readvFrame_blind h (fun _ => rfl) (fun _ _ _ _ _ => rfl) (fun _ => rfl)
    simpa only [readvFrame, Prod.mk.injEq] using hframe

/-- Settles O50: in IDLE the order holds of any trace, every run keeps it, and it says what stands before each byte. -/
theorem virtualWriteBytesAreOrdered : Obligations.VirtualWriteBytesAreOrdered := by
  intro s t k a d r v hi hp hr hrun ha hreq
  have ho : orderedAt t.cfg (.write a d) t.step t.trace := runSteps_order hi (.of_idle hp) hr hrun _ ha
  obtain ⟨acc, hacc, hq⟩ := State.request_eq_some hreq
  obtain rfl : .write a d = acc := Option.some.inj (ha.symm.trans hacc)
  rcases Access.request_write_eq_wr hq with ⟨h2, hv⟩ | ⟨h4, hv⟩
  · rw [h2] at ho
    exact ⟨fun _ => ⟨hv, ho.before_address⟩, fun h4 => absurd (h2.symm.trans h4) (by decide), .inl h2⟩
  · rw [h4] at ho
    exact ⟨fun h2 => absurd (h2.symm.trans h4) (by decide), fun _ => ⟨hv, ho.before_data⟩, .inr h4⟩

/-- Settles O13: the address passes WRITEV's value check. -/
theorem writevIsAccepted : Obligations.WritevIsAccepted :=
  fun _ _ _ hp hctrl hled => exec_accepted hp (operandCheck_writev_unprotected hctrl hled)

/-- Settles O14: the address fails WRITEV's value check; READV has none. -/
theorem controllerRegistersAreWriteProtected : Obligations.ControllerRegistersAreWriteProtected :=
  fun _ _ _ hp ha => ⟨exec_refused hp (operandCheck_writev_protected ha), _, exec_accepted hp rfl, rfl, rfl, rfl⟩

/-- Settles O15: READV has no value check. -/
theorem readvIsAccepted : Obligations.ReadvIsAccepted :=
  fun _ _ hp => exec_accepted hp rfl

/-- Settles O21: the STATUS byte shows the condition of the last polling step, after which WRITEV finishes. -/
theorem writevEndsOk : Obligations.WritevEndsOk := by
  intro a d b rest s hp hc hsub hstep ht hb
  have ha : s.access = some (.write a d) := by rw [State.access, hc, instrOf_latchOf]
  have hshown : PollCond.txClear.holds s.cfg b = true := by simp only [PollCond.holds, statusTx, hb, Bool.not_false]
  rw [exec_run _ _ s hp hc ha (by rw [hsub]; exact Nat.one_pos), runAccess_lastPoll _ _ _ hstep, pollStep_ok ht hshown]
  rfl

/-- Settles O22: the READ transaction is READV's last, after which it finishes with VBYTE. -/
theorem readvEndsOkWithTheByte : Obligations.ReadvEndsOkWithTheByte := by
  intro a b rest s hp hc hsub hstep ht
  have ha : s.access = some (.read a) := by rw [State.access, hc, instrOf_latchOf]
  rw [exec_run _ _ s hp hc ha (by rw [hsub]; exact Nat.one_pos), runAccess_dataRead _ _ hstep, readStep_ok ht]
  rfl

end Sys2Proof.Machine
end

section
/-! The multi-byte value assembler (spec 42_value_assembler.md): READMB's range checks and acceptance, the two ways it
goes on after a byte (`mbByteRead_next`, `mbByteRead_last`), and its virtual reads one after the other
(`runSteps_vreads`), whose bytes make the value of R191 (`foldl_accPush_toNat`). -/

namespace Sys2Proof.Machine

/-! ### Acceptance -/

section
variable {p : Params} {r : Bool} {a : VAddr} {n : BitVec 3}

/-- READMB's count is looked at first (R192). -/
theorem operandCheck_readmb_count (h : n.toNat = 0 ∨ 5 ≤ n.toNat) :
    operandCheck p r (.readmb a n) = some .count := if_pos h

/-- With a legal count, READMB's last address is looked at (R192). -/
theorem operandCheck_readmb_addr (h1 : 1 ≤ n.toNat) (h4 : n.toNat ≤ 4) (ha : 0x7F < a.toNat + n.toNat - 1) :
    operandCheck p r (.readmb a n) = some .addr := by
  rw [operandCheck, readmbCheck_eq, if_neg (by omega), if_pos ha]

/-- READMB's value check lets every read of 1 to 4 bytes inside the address space pass (R192). -/
theorem operandCheck_readmb_legal (h1 : 1 ≤ n.toNat) (h4 : n.toNat ≤ 4) (ha : a.toNat + n.toNat - 1 ≤ 0x7F) :
    operandCheck p r (.readmb a n) = none := by
  rw [operandCheck, readmbCheck_eq, if_neg (by omega), if_neg (by omega)]

end

/-! ### The addresses of the accesses -/

/-- Inside the address space the 7-bit sum is the sum (R192). -/
theorem mbAddr_toNat {a : VAddr} {j : BitVec 2} (h : a.toNat + j.toNat ≤ 0x7F) :
    (mbAddr a j).toNat = a.toNat + j.toNat := by
  have hj : (j.setWidth 7).toNat = j.toNat := BitVec.toNat_setWidth_of_le (by decide)
  rw [mbAddr, BitVec.toNat_add_of_lt (by omega), hj]

/-- Access 0 is at the start address. -/
theorem mbAddr_zero (a : VAddr) : mbAddr a 0 = a := BitVec.add_zero a

/-- An access before the last has a next one: the index does not wrap (R33). -/
theorem sub_succ_toNat {j : BitVec 2} (h : j.toNat + 1 < 4) : (j + 1).toNat = j.toNat + 1 :=
  BitVec.toNat_add_of_lt h

/-- The next access is at the next address (R190). -/
theorem mbAddr_succ (a : VAddr) {j : BitVec 2} (h : j.toNat + 1 < 4) : mbAddr a (j + 1) = mbAddr a j + 1 := by
  have hj : (j + 1).setWidth 7 = j.setWidth 7 + 1 := by bv_omega
  rw [mbAddr, hj, ← BitVec.add_assoc, mbAddr]

/-! ### After a byte -/

section
variable {a : VAddr} {n : BitVec 3} {t : State} (hc : t.cmd = latchOf (.readmb a n))
include hc

/-- After the last byte READMB ends with ACC, that byte included (R190). -/
theorem mbByteRead_last (h : t.sub.toNat + 1 = n.toNat) :
    mbByteRead t = ({ t with acc := accPush t.acc t.vbyte } : State).finish (accPush t.acc t.vbyte) :=
  if_neg (by simp only [hc, latchOf]; omega)

/-- After an earlier byte READMB begins its next access (R190). -/
theorem mbByteRead_next (h : t.sub.toNat + 1 < n.toNat) :
    mbByteRead t = ({ t with acc := accPush t.acc t.vbyte } : State).toAccess (t.sub + 1) :=
  if_pos (by simpa only [hc, latchOf] using h)

end

/-- READMB's virtual read at its position (R190). -/
theorem access_readmb {a : VAddr} {n : BitVec 3} {s : State} (hc : s.cmd = latchOf (.readmb a n)) :
    s.access = some (.read (mbAddr a s.sub)) := by
  rw [State.access, hc, instrOf_latchOf]

/-- The step that reads the byte `b` from READ (R171, R190). -/
theorem exec_readmb_dataRead {a : VAddr} {n : BitVec 3} {b : Byte} {rest : List Answer} {s : State}
    (hp : s.phase = .run) (hc : s.cmd = latchOf (.readmb a n)) (hsub : s.sub.toNat < n.toNat) (hstep : s.step = 4)
    (ht : s.tape = .ok b :: rest) :
    exec (.readmb a n) s = .next (mbByteRead
      { afterEvent s rest s.free (.rdOk s.cfg.devAddr s.cfg.pregRead b) with vbyte := b }) := by
  rw [exec_run _ _ s hp hc (access_readmb hc) hsub, runAccess_dataRead _ _ hstep, readStep_ok ht]
  rfl

/-! ### The value -/

/-- `k` bytes make a number of `8k` bits. -/
theorem bigEndian_lt (bs : List Byte) : bigEndian bs < 2 ^ (8 * bs.length) := by
  induction bs with
  | nil => exact Nat.one_pos
  | cons b bs ih =>
    have hb : b.toNat * 2 ^ (8 * bs.length) ≤ 255 * 2 ^ (8 * bs.length) :=
      Nat.mul_le_mul_right _ (Nat.le_of_lt_succ b.isLt)
    rw [bigEndian, List.length_cons, Nat.mul_succ, Nat.pow_add]
    omega

/-- Where ACC holds `k` bytes, fewer than four, one more stands below them (R191). -/
theorem accPush_toNat_of_bytes {acc : Word} (b : Byte) {k : Nat} (hk : k < 4) (h : acc.toNat < 2 ^ (8 * k)) :
    (accPush acc b).toNat = acc.toNat * 256 + b.toNat :=
  accPush_toNat b (h.trans_le (Nat.pow_le_pow_right (by decide) (by omega)))

/-- Bytes shifted into an ACC that holds `k` bytes stand below them, the first one on top, while all of them fit
(R191). -/
theorem foldl_accPush_toNat {bs : List Byte} {acc : Word} {k : Nat} (hk : k + bs.length ≤ 4)
    (ha : acc.toNat < 2 ^ (8 * k)) :
    (bs.foldl accPush acc).toNat = acc.toNat * 2 ^ (8 * bs.length) + bigEndian bs := by
  induction bs generalizing acc k with
  | nil => simp [bigEndian]
  | cons b bs ih =>
    rw [List.length_cons] at hk
    have hk4 : k < 4 := by omega
    rw [List.foldl_cons, ih (k := k + 1) (by omega) (accPush_toNat_lt b hk4 ha), accPush_toNat_of_bytes b hk4 ha,
      bigEndian, List.length_cons]
    ring

/-! ### READMB's virtual reads -/

/-- From the first poll of an access on, READMB makes the virtual reads `hs` it has left, each answered, and ends with
their bytes shifted into ACC (R190, R195). -/
theorem runSteps_vreads {a : VAddr} {n : BitVec 3} (hn : n.toNat ≤ 4) {hs : List ReadAnswers} (rest : List Answer)
    {s : State} {c : VAddr} (h : InAccess (.readmb a n) (.read c) s) (hleft : s.sub.toNat + hs.length = n.toNat)
    (hgood : hs.all (·.good s.cfg) = true) (tr : List XEvent) :
    ∃ u : State, runSteps (hs.flatMap ReadAnswers.answers).length
        (atPoint s 1 0 (hs.flatMap ReadAnswers.answers ++ rest) tr)
          = .next (u.finish ((hs.map ReadAnswers.data).foldl accPush s.acc))
      ∧ u.trace = (mbEvents s.cfg c hs).reverse ++ tr := by
  induction hs generalizing s c tr with
  | nil => exact absurd hleft h.sub.ne
  | cons r hs ih =>
    obtain ⟨hr, hrs⟩ : r.good s.cfg = true ∧ hs.all (·.good s.cfg) = true := by
      simpa only [List.all_cons, Bool.and_eq_true] using hgood
    rw [List.length_cons] at hleft
    rw [List.flatMap_cons, List.length_append, List.append_assoc, runSteps_vread h hr, accessDone, mbEvents,
      List.reverse_append, List.append_assoc, List.map_cons, List.foldl_cons]
    cases hs with
    | nil =>
      rw [mbByteRead_last (a := a) (n := n)]
      · exact ⟨_, rfl, rfl⟩
      · exact h.latched
      · exact hleft
    | cons r' hs =>
      have hlt : s.sub.toNat + 1 < n.toNat := by
        rw [List.length_cons] at hleft
        omega
      have h3 : s.sub.toNat + 1 < 4 := by omega
      have hsub : (s.sub + 1).toNat = s.sub.toNat + 1 := sub_succ_toNat h3
      have hrest : (s.sub + 1).toNat + (r' :: hs).length = n.toNat := by omega
      have hc : c = mbAddr a s.sub :=
        Access.read.inj (Option.some.inj (h.access.symm.trans (access_readmb h.latched)))
      have hnext : InAccess (.readmb a n) (.read (mbAddr a s.sub + 1))
          { s with sub := s.sub + 1, vbyte := r.data, acc := accPush s.acc r.data } :=
        ⟨h.alone, h.run, h.latched, hsub.trans_lt hlt, mbAddr_succ a h3 ▸ access_readmb h.latched⟩
      rw [mbByteRead_next (a := a) (n := n), hc]
      · exact ih hnext hrest hrs _
      · exact h.latched
      · exact hlt

/-! ### What READMB leaves unchanged -/

/-- What READMB does not change: all of READV's frame but ACC (R190). -/
def readmbFrame (s : State) : Byte × Byte × Bool × Bool × Params × HostSession × List HostInput :=
  (s.pend, s.ctrlShadow, s.initDone, s.overrun, s.cfg, s.host, s.inputs)

theorem readmbFrame_blind : BlindToEngine readmbFrame := fun _ _ _ _ _ _ _ _ _ _ => rfl

/-- After a byte READMB changes ACC and its position, or ends. -/
theorem readmbFrame_mbByteRead (t : State) : readmbFrame (mbByteRead t) = readmbFrame t := by
  simp only [mbByteRead]
  split
  · rfl
  · rfl

/-! ### The obligations -/

/-- Settles O29: READMB is accepted and makes its virtual reads; their bytes, shifted into an ACC of 0, make the sum. -/
theorem readmbAssemblesMostSignificantFirst : Obligations.ReadmbAssemblesMostSignificantFirst := by
  constructor
  · intro a n hs rest s hp hh hin h1 h4 ha hlen hgood ht
    have h : InAccess (.readmb a n) (.read a) (afterAccept s (.readmb a n)) :=
      ⟨⟨rfl, hh⟩, rfl, rfl, h1, (access_readmb rfl).trans (congrArg (some <| Access.read ·) (mbAddr_zero a))⟩
    obtain ⟨u, hrun, htrace⟩ := runSteps_vreads h4 rest h ((Nat.zero_add _).trans hlen) hgood s.trace
    have hvalue : ((hs.map ReadAnswers.data).foldl accPush 0).toNat = bigEndian (hs.map ReadAnswers.data) :=
      (foldl_accPush_toNat (k := 0) (by rw [List.length_map]; omega) (by decide)).trans (by simp)
    refine ⟨_, (runSteps_accepted hp hin (operandCheck_readmb_legal h1 h4 ha) ht _).trans hrun, rfl, rfl, rfl, hvalue,
      ?_, htrace⟩
    have hbound := bigEndian_lt (hs.map ReadAnswers.data)
    rw [List.length_map, hlen, ← hvalue] at hbound
    exact hbound
  · intro acc b k hk hacc
    exact ⟨accPush_toNat_of_bytes b hk hacc, accPush_toNat_lt b hk hacc⟩

/-- Settles O17: the count, then the last address, fails READMB's value check; in range no address wraps. -/
theorem readmbRangeIsChecked : Obligations.ReadmbRangeIsChecked :=
  fun _ _ _ hp => ⟨fun hn => exec_refused hp (operandCheck_readmb_count hn),
    fun h1 h4 ha => exec_refused hp (operandCheck_readmb_addr h1 h4 ha),
    fun h1 h4 ha j hj => ⟨mbAddr_toNat (by omega), by omega⟩⟩

/-- Settles O41: READMB's own lines write ACC alone; SETLED's access is no read, so it keeps VBYTE too, like WRITEV. -/
theorem readmbAndSetledFrame : Obligations.ReadmbAndSetledFrame := by
  intro a n e drv sns s t
  constructor
  · intro h
    have hframe : readmbFrame t = readmbFrame s :=
      exec_keeps readmbFrame_blind h (fun _ => rfl) (fun _ _ _ _ _ => rfl) readmbFrame_mbByteRead
    simpa only [readmbFrame, Prod.mk.injEq] using hframe
  · intro h
    have hwrite (hc : s.cmd = latchOf (.setled e drv sns)) :
        s.access = some (.write s.cfg.vregLed (ledByte s.cfg.led e drv sns)) := by
      rw [State.access, hc, instrOf_latchOf]
    have hframe : writevFrame t = writevFrame s :=
      exec_keeps writevFrame_blind h (fun _ => rfl) (fun _ hc hr => nomatch (hwrite hc).symm.trans hr) (fun _ => rfl)
    simpa only [writevFrame, Prod.mk.injEq] using hframe

/-- Settles O16: count and addresses pass READMB's value check. -/
theorem readmbIsAccepted : Obligations.ReadmbIsAccepted :=
  fun _ _ _ hp h1 h4 ha => exec_accepted hp (operandCheck_readmb_legal h1 h4 ha)

/-- Settles O23: the READ transaction is the last of its virtual read, after which READMB ends or goes on. -/
theorem readmbByteIsAssembled : Obligations.ReadmbByteIsAssembled := by
  intro a n b rest s hp hc hstep ht
  constructor
  · intro hlast
    rw [exec_readmb_dataRead hp hc (by omega) hstep ht]
    exact congrArg Host.Outcome.next (mbByteRead_last hc hlast)
  · intro hnext
    rw [exec_readmb_dataRead hp hc (by omega) hstep ht]
    exact congrArg Host.Outcome.next (mbByteRead_next hc hnext)

end Sys2Proof.Machine
end

section
/-! The chip controller (spec 43_chip_controller.md): INIT, SETLED and STARTMEAS from acceptance to their OK end, what
they leave unchanged, what each command does to INIT_DONE and CTRL_SHADOW (R210, R226), and the fields of the control and
LED bytes (R211, R214). A step of a virtual access either reaches its end, where the command's own lines follow, or does
not touch the controller (`AccessStep.done_or_keeps`), so each transition is read off those lines. -/

namespace Sys2Proof.Machine

/-! ### The virtual writes of the chip controller -/

section
variable {s : State}

/-- WRITEV's virtual write (R165). -/
theorem access_writev {a : VAddr} {d : Byte} (hc : s.cmd = latchOf (.writev a d)) :
    s.access = some (.write a d) := by
  rw [State.access, hc, instrOf_latchOf]

/-- INIT writes PEND to VREG_CTRL (R215). -/
theorem access_init (hc : s.cmd = latchOf .init) : s.access = some (.write s.cfg.vregCtrl s.pend) := by
  rw [State.access, hc, instrOf_latchOf]

/-- SETLED writes the LED byte to VREG_LED (R220). -/
theorem access_setled {e : BitVec 1} {drv sns : BitVec 2} (hc : s.cmd = latchOf (.setled e drv sns)) :
    s.access = some (.write s.cfg.vregLed (ledByte s.cfg.led e drv sns)) := by
  rw [State.access, hc, instrOf_latchOf]

/-- STARTMEAS writes PEND to VREG_CTRL (R225). -/
theorem access_startmeas (hc : s.cmd = latchOf .startmeas) : s.access = some (.write s.cfg.vregCtrl s.pend) := by
  rw [State.access, hc, instrOf_latchOf]

/-- The STATUS read that shows TX_PENDING clear at step 5 ends a command's virtual write (R161). -/
theorem exec_lastPoll {i : Instr} {a : VAddr} {d b : Byte} {rest : List Answer} (hp : s.phase = .run)
    (hc : s.cmd = latchOf i) (hsub : s.sub.toNat < accessCount i) (ha : s.access = some (.write a d))
    (h5 : s.step = 5) (ht : s.tape = .ok b :: rest) (hb : b.getLsbD s.cfg.txBit.val = false) :
    exec i s
      = .next (accessDone i (afterPollRead s rest s.free (.rdOk s.cfg.devAddr s.cfg.pregStatus b))) := by
  have hshown : PollCond.txClear.holds s.cfg b = true := by simp only [PollCond.holds, statusTx, hb, Bool.not_false]
  rw [exec_run i _ s hp hc ha hsub, runAccess_lastPoll _ _ _ h5, pollStep_ok ht hshown]

/-- After the reset write INIT begins its configuration write, with DEFAULT_CFG in PEND (R215). -/
theorem initWritten_reset (h : s.sub = 0) :
    initWritten s = ({ s with pend := defaultCfg s.cfg } : State).toAccess 1 := if_pos h

/-- After the configuration write INIT ends READY, with the byte written in CTRL_SHADOW (R215). -/
theorem initWritten_config (h : s.sub ≠ 0) :
    initWritten s = ({ s with ctrlShadow := s.pend, initDone := true } : State).freePend.finish 0 := if_neg h

end

/-! ### STARTMEAS's value check -/

/-- In READY STARTMEAS passes its value check (R225). -/
theorem operandCheck_startmeas_ready {p : Params} {r : Bool} (h : r = true) :
    operandCheck p r .startmeas = none := if_pos h

/-- In UNINIT STARTMEAS fails it (R225). -/
theorem operandCheck_startmeas_uninit {p : Params} {r : Bool} (h : r = false) :
    operandCheck p r .startmeas = some .noinit := if_neg (by rw [h]; decide)

/-- STARTMEAS passes its value check in READY only (R225). -/
theorem ready_of_operandCheck_startmeas {p : Params} {r : Bool} (h : operandCheck p r .startmeas = none) :
    r = true := by
  cases r with
  | true => rfl
  | false => cases h

/-! ### What a step does to the controller -/

/-- The chip controller's state: INIT_DONE and CTRL_SHADOW (R37, R38, R210). -/
def controller (s : State) : Bool × Byte := (s.initDone, s.ctrlShadow)

theorem controller_blind : BlindToEngine controller := fun _ _ _ _ _ _ _ _ _ _ => rfl

/-- The `accept` lines of INIT alone change the controller (R215). -/
theorem controller_startOf {i : Instr} (hi : i ≠ .init) (t : State) : controller (startOf i t) = controller t := by
  cases i with
  | init => exact absurd rfl hi
  | _ => rfl

/-- The lines after a virtual access change the controller under INIT and STARTMEAS only (R210). -/
theorem controller_accessDone {i : Instr} (hi : i ≠ .init) (hm : i ≠ .startmeas) (t : State) :
    controller (accessDone i t) = controller t := by
  cases i with
  | init => exact absurd rfl hi
  | startmeas => exact absurd rfl hm
  | readmb a n =>
    simp only [accessDone, mbByteRead]
    split
    · rfl
    · rfl
  | _ => rfl

/-- No command but INIT and STARTMEAS changes the controller (R210). -/
theorem exec_controller {i : Instr} {s t : State} (hi : i ≠ .init) (hm : i ≠ .startmeas) (h : exec i s = .next t) :
    controller t = controller s :=
  exec_keeps controller_blind h (controller_startOf hi) (fun _ _ _ _ _ => rfl) (controller_accessDone hi hm)

/-- A step of a virtual access ends the access, or leaves the controller alone and the command running or STALLED. -/
theorem AccessStep.done_or_keeps {acc : Access} {done : State → State} {s t : State}
    (h : AccessStep acc done s (.next t)) :
    (∃ p b tp fr tr, t = done (afterAccess s p b tp fr tr))
    ∨ (controller t = controller s ∧ (t.phase = s.phase ∨ (t.phase = .idle ∧ t.rsp.status = statusStalled))) := by
  cases h with
  | written a d tp fr e => exact .inl ⟨s.pcnt + 1, s.vbyte, tp, fr, e :: s.trace, rfl⟩
  | got a b tp fr => exact .inl ⟨s.pcnt, b, tp, fr, .rdOk s.cfg.devAddr s.cfg.pregRead b :: s.trace, rfl⟩
  | timeout => exact .inr ⟨rfl, .inr ⟨rfl, rfl⟩⟩
  | aborted => exact .inr ⟨rfl, .inr ⟨rfl, rfl⟩⟩
  | writeFailed => exact .inr ⟨rfl, .inr ⟨rfl, rfl⟩⟩
  | readFailed => exact .inr ⟨rfl, .inr ⟨rfl, rfl⟩⟩
  | _ => exact .inr ⟨rfl, .inl rfl⟩

/-- STARTMEAS refused or accepted leaves the controller alone (R210). -/
theorem exec_startmeas_idle {s t : State} (hp : s.phase = .idle) (h : exec .startmeas s = .next t) :
    controller t = controller s := by
  obtain ⟨c, rfl⟩ | ⟨-, rfl⟩ := exec_idle_inv hp h
  · rfl
  · rfl

/-- A running STARTMEAS ends OK with PEND in CTRL_SHADOW, or leaves the controller alone and goes on or stalls (R210,
R225). -/
theorem exec_startmeas_run {s t : State} (hp : s.phase = .run) (h : exec .startmeas s = .next t) :
    (controller t = (s.initDone, s.pend) ∧ t.phase = .idle ∧ t.rsp.valid = true ∧ t.rsp.status = statusOk)
    ∨ (controller t = controller s ∧ (t.phase = .run ∨ (t.phase = .idle ∧ t.rsp.status = statusStalled))) := by
  obtain ⟨-, -, acc, -, hstep⟩ := exec_run_inv hp h
  obtain ⟨p, b, tp, fr, tr, rfl⟩ | hkept := hstep.done_or_keeps
  · exact .inl ⟨rfl, rfl, rfl, rfl⟩
  · exact .inr (hp ▸ hkept)

/-- In the invariant STARTMEAS leaves in the shadow what was there or the byte it writes (R225). -/
theorem Inv.startmeas_shadow {s t : State} (hs : Inv s) (h : exec .startmeas s = .next t) :
    t.ctrlShadow = s.ctrlShadow ∨ t.ctrlShadow = triggerByte s.cfg s.ctrlShadow := by
  cases hp : s.phase with
  | idle =>
    obtain ⟨-, hkept⟩ := Prod.mk.inj (exec_startmeas_idle hp h)
    exact .inl hkept
  | run =>
    obtain ⟨hc, -⟩ := exec_run_inv hp h
    obtain ⟨hend, -⟩ | ⟨hkept, -⟩ := exec_startmeas_run hp h
    · obtain ⟨-, hb⟩ := Prod.mk.inj hend
      exact .inr (hb.trans (hs.measPend hp hc))
    · obtain ⟨-, hb⟩ := Prod.mk.inj hkept
      exact .inl hb

/-- A running INIT ends its second access OK, in READY with PEND in CTRL_SHADOW, or leaves the controller alone and goes
on or stalls (R210, R215). -/
theorem exec_init_run {s t : State} (hp : s.phase = .run) (h : exec .init s = .next t) :
    (s.sub ≠ 0 ∧ controller t = (true, s.pend) ∧ t.phase = .idle ∧ t.rsp.status = statusOk)
    ∨ (controller t = controller s ∧ (t.phase = .run ∨ (t.phase = .idle ∧ t.rsp.status = statusStalled))) := by
  obtain ⟨-, -, acc, -, hstep⟩ := exec_run_inv hp h
  obtain ⟨p, b, tp, fr, tr, rfl⟩ | hkept := hstep.done_or_keeps
  · by_cases hsub : s.sub = 0
    · rw [accessDone, initWritten_reset (s := afterAccess s p b tp fr tr) hsub]
      exact .inr ⟨rfl, .inl hp⟩
    · rw [accessDone, initWritten_config (s := afterAccess s p b tp fr tr) hsub]
      exact .inl ⟨hsub, rfl, rfl, rfl⟩
  · exact .inr (hp ▸ hkept)

/-! ### What INIT and STARTMEAS leave unchanged -/

/-- What neither INIT nor STARTMEAS changes (R215, R225). -/
def controllerFrame (s : State) : Word × Byte × Bool × Params × HostSession × List HostInput :=
  (s.acc, s.vbyte, s.overrun, s.cfg, s.host, s.inputs)

theorem controllerFrame_blind : BlindToEngine controllerFrame := fun _ _ _ _ _ _ _ _ _ _ => rfl

theorem controllerFrame_initWritten (t : State) : controllerFrame (initWritten t) = controllerFrame t := by
  by_cases h : t.sub = 0
  · rw [initWritten_reset h]
    rfl
  · rw [initWritten_config h]
    rfl

theorem exec_init_frame {s t : State} (h : exec .init s = .next t) : controllerFrame t = controllerFrame s :=
  exec_keeps controllerFrame_blind h (fun _ => rfl) (fun _ hc hr => nomatch (access_init hc).symm.trans hr)
    controllerFrame_initWritten

theorem exec_startmeas_frame {s t : State} (h : exec .startmeas s = .next t) :
    controllerFrame t = controllerFrame s :=
  exec_keeps controllerFrame_blind h (fun _ => rfl) (fun _ hc hr => nomatch (access_startmeas hc).symm.trans hr)
    (fun _ => rfl)

/-! ### A field of a byte -/

/-- Reading a field back from the byte whose bits at its place are the field's. -/
theorem field_eq_of_bits {w p : Nat} {b : Byte} {x : BitVec w} (h : ∀ j < w, b.getLsbD (p + j) = x.getLsbD j) :
    (b >>> p).setWidth w = x := by
  refine BitVec.eq_of_getLsbD_eq fun j hj => ?_
  rw [BitVec.getLsbD_setWidth, BitVec.getLsbD_ushiftRight, h j hj, decide_eq_true hj, Bool.true_and]

/-! ### The control byte -/

/-- The bits of the four fields `ctrlByte` sets: all of the layout's but DRDY's (R211). -/
def ctrlPlaces (l : CtrlLayout) : List Nat := [l.rst, l.int, l.gain, l.gain + 1, l.mode, l.mode + 1]

theorem ctrlBits_eq_places (l : CtrlLayout) : l.bits = ctrlPlaces l ++ [l.drdy.val] := rfl

/-- Where the places are apart, DRDY's is none of the four fields'. -/
theorem drdy_not_mem_ctrlPlaces {l : CtrlLayout} (h : l.bits.Nodup) : l.drdy.val ∉ ctrlPlaces l := by
  rw [ctrlBits_eq_places, ← List.concat_eq_append, List.nodup_concat] at h
  exact h.1

section
variable {l : CtrlLayout} (r i : BitVec 1) (g m : BitVec 2)

/-- A control byte has no bit outside RST, INT, GAIN and MODE: DRDY and the reserved bits are 0 (R211). -/
theorem ctrlByte_outside {k : Nat} (h : k ∉ ctrlPlaces l) : (ctrlByte l r i g m).getLsbD k = false := by
  simp only [ctrlPlaces, List.mem_cons, List.not_mem_nil, or_false, not_or] at h
  simp only [ctrlByte, BitVec.getLsbD_or]
  rw [placed_outside r _ _ (by omega), placed_outside i _ _ (by omega), placed_outside g _ _ (by omega),
    placed_outside m _ _ (by omega)]
  rfl

/-- The RST field of a control byte. -/
theorem ctrlRst_ctrlByte (h : l.bits.Nodup) : ctrlRst l (ctrlByte l r i g m) = r := by
  refine field_eq_of_bits fun j hj => ?_
  have hlt := l.rst.isLt
  simp [CtrlLayout.bits] at h
  simp only [ctrlByte, BitVec.getLsbD_or]
  rw [placed_inside r _ _ (by omega), placed_outside i _ _ (by omega), placed_outside g _ _ (by omega),
    placed_outside m _ _ (by omega)]
  simp

end

/-- The byte STARTMEAS writes has the shadow's GAIN (R226). -/
theorem ctrlGain_triggerByte {p : Params} (h : p.wf = true) (b : Byte) :
    ctrlGain p.ctrl (triggerByte p b) = ctrlGain p.ctrl b := ctrlGain_ctrlByte (ctrl_apart h) _ _ _ _

/-- The byte STARTMEAS writes has the shadow's INT (R226). -/
theorem ctrlInt_triggerByte {p : Params} (h : p.wf = true) (b : Byte) :
    ctrlInt p.ctrl (triggerByte p b) = ctrlInt p.ctrl b := ctrlInt_ctrlByte (ctrl_apart h) _ _ _ _

/-- The chip controller's two registers are apart (R12). -/
theorem ctrl_ne_led {p : Params} (h : p.wf = true) : p.vregCtrl ≠ p.vregLed := by
  simp [Params.wf, Params.checks] at h
  tauto

/-- WRITEV's value check keeps it off VREG_CTRL (R166). -/
theorem ne_ctrl_of_operandCheck_writev {p : Params} {r : Bool} {a : VAddr} {d : Byte}
    (h : operandCheck p r (.writev a d) = none) : a ≠ p.vregCtrl :=
  fun ha => nomatch h.symm.trans (operandCheck_writev_protected (.inl ha))

/-! ### The LED byte -/

section
variable {l : LedLayout} (drv sns : BitVec 2)

/-- The LED byte when on is its two levels and its two enables, each put at its place (R214). -/
theorem ledByte_on : ledByte l 1 drv sns
    = (drv.setWidth 8 <<< l.drv.val) ||| ((1#1).setWidth 8 <<< l.drvEn.val)
      ||| (sns.setWidth 8 <<< l.sns.val) ||| ((1#1).setWidth 8 <<< l.snsEn.val) := rfl

/-- The LED byte has no bit outside its levels and enables: the reserved bits are 0 (R214). -/
theorem ledByte_outside {k : Nat} (h : k ∉ l.bits) : (ledByte l 1 drv sns).getLsbD k = false := by
  simp only [LedLayout.bits, List.mem_cons, List.not_mem_nil, or_false, not_or] at h
  simp only [ledByte_on, BitVec.getLsbD_or]
  rw [placed_outside drv _ _ (by omega), placed_outside 1#1 l.drvEn.val _ (by omega),
    placed_outside sns _ _ (by omega), placed_outside 1#1 l.snsEn.val _ (by omega)]
  rfl

/-- The DRV field of the LED byte. -/
theorem ledByte_drv (h : l.bits.Nodup) : (ledByte l 1 drv sns >>> l.drv.val).setWidth 2 = drv := by
  refine field_eq_of_bits fun j hj => ?_
  have hlt := l.drv.isLt
  simp [LedLayout.bits] at h
  simp only [ledByte_on, BitVec.getLsbD_or]
  rw [placed_inside drv _ _ (by omega), placed_outside 1#1 l.drvEn.val _ (by omega),
    placed_outside sns _ _ (by omega), placed_outside 1#1 l.snsEn.val _ (by omega)]
  simp

/-- The SNS field of the LED byte. -/
theorem ledByte_sns (h : l.bits.Nodup) : (ledByte l 1 drv sns >>> l.sns.val).setWidth 2 = sns := by
  refine field_eq_of_bits fun j hj => ?_
  have hlt := l.sns.isLt
  simp [LedLayout.bits] at h
  simp only [ledByte_on, BitVec.getLsbD_or]
  rw [placed_inside sns _ _ (by omega), placed_outside drv _ _ (by omega),
    placed_outside 1#1 l.drvEn.val _ (by omega), placed_outside 1#1 l.snsEn.val _ (by omega)]
  simp

/-- The DRV_EN bit of the LED byte when on. -/
theorem ledByte_drvEn : (ledByte l 1 drv sns).getLsbD l.drvEn.val = true := by
  have hplaced := placed_inside 1#1 l.drvEn.val 0 l.drvEn.isLt
  rw [Nat.add_zero] at hplaced
  simp only [ledByte_on, BitVec.getLsbD_or, hplaced]
  simp

/-- The SNS_EN bit of the LED byte when on. -/
theorem ledByte_snsEn : (ledByte l 1 drv sns).getLsbD l.snsEn.val = true := by
  have hplaced := placed_inside 1#1 l.snsEn.val 0 l.snsEn.isLt
  rw [Nat.add_zero] at hplaced
  simp only [ledByte_on, BitVec.getLsbD_or, hplaced]
  simp

/-- The LED byte when on is not 0x00: DRV_EN is 1 (R214). -/
theorem ledByte_on_ne_zero : ledByte l 1 drv sns ≠ 0 := by
  intro h
  have hset := ledByte_drvEn (l := l) drv sns
  rw [h] at hset
  simp at hset

end

/-! ### The bytes written to VREG_CTRL -/

/-- Every byte the engine writes to VREG_CTRL is a control byte: only INIT and STARTMEAS write there, and their PEND is
one (R211). -/
theorem Inv.ctrlByte_of_access {s : State} {d : Byte} (h : Inv s) (hp : s.phase = .run)
    (ha : s.access = some (.write s.cfg.vregCtrl d)) : ∃ r i g m, d = ctrlByte s.cfg.ctrl r i g m := by
  obtain ⟨i, -, hc, hk, -⟩ := h.running hp
  cases i with
  | writev a d' =>
    obtain ⟨hctrl, -⟩ := Access.write.inj (Option.some.inj ((access_writev hc).symm.trans ha))
    exact absurd hctrl (ne_ctrl_of_operandCheck_writev hk)
  | readv a =>
    rw [State.access, hc, instrOf_latchOf] at ha
    cases ha
  | readmb a n => cases (access_readmb hc).symm.trans ha
  | init =>
    obtain ⟨-, rfl⟩ := Access.write.inj (Option.some.inj ((access_init hc).symm.trans ha))
    obtain ⟨-, hpend⟩ := h.initPend hp hc
    rw [hpend]
    split
    · exact ⟨_, _, _, _, rfl⟩
    · exact ⟨_, _, _, _, rfl⟩
  | setled e drv sns =>
    obtain ⟨hled, -⟩ := Access.write.inj (Option.some.inj ((access_setled hc).symm.trans ha))
    exact absurd hled.symm (ctrl_ne_led h.config)
  | startmeas =>
    obtain ⟨-, rfl⟩ := Access.write.inj (Option.some.inj ((access_startmeas hc).symm.trans ha))
    exact ⟨_, _, _, _, h.measPend hp hc⟩

/-! ### The obligations -/

/-- Settles O30: INIT is accepted and makes two virtual writes; the first ends where the second begins. -/
theorem initRunsToOk : Obligations.InitRunsToOk := by
  intro w v rest s hp hh hin hw hv ht
  have hreset : InAccess .init (.write s.cfg.vregCtrl (ctrlResetWord s.cfg)) (afterAccept s .init) :=
    ⟨⟨rfl, hh⟩, rfl, rfl, Nat.two_pos, rfl⟩
  have hconfig : InAccess .init (.write s.cfg.vregCtrl (defaultCfg s.cfg))
      { afterAccept s .init with sub := 1, pend := defaultCfg s.cfg } :=
    ⟨⟨rfl, hh⟩, rfl, rfl, Nat.one_lt_two, rfl⟩
  rw [runSteps_accepted hp hin rfl ht, runSteps_vwrite hreset hw, accessDone, initWritten_reset (by rfl), hp,
    List.reverse_append, List.append_assoc]
  exact runSteps_vwrite hconfig hv 0 rest _

/-- Settles O31: SETLED is accepted, and makes its virtual write. -/
theorem setledRunsToOk : Obligations.SetledRunsToOk := by
  intro e drv sns w rest s hp hh hin hw ht
  have h : InAccess (.setled e drv sns) (.write s.cfg.vregLed (ledByte s.cfg.led e drv sns))
      (afterAccept s (.setled e drv sns)) := ⟨⟨rfl, hh⟩, rfl, rfl, Nat.one_pos, rfl⟩
  rw [runSteps_accepted hp hin rfl ht, hp]
  exact runSteps_vwrite h hw 0 rest s.trace

/-- Settles O32: in READY STARTMEAS is accepted, and makes its virtual write. -/
theorem startmeasRunsToOk : Obligations.StartmeasRunsToOk := by
  intro w rest s hp hh hin hd hw ht
  have h : InAccess .startmeas (.write s.cfg.vregCtrl (triggerByte s.cfg s.ctrlShadow)) (afterAccept s .startmeas) :=
    ⟨⟨rfl, hh⟩, rfl, rfl, Nat.one_pos, rfl⟩
  rw [runSteps_accepted hp hin (operandCheck_startmeas_ready hd) ht, hp]
  exact runSteps_vwrite h hw 0 rest s.trace

/-- Settles O42: both make virtual writes only, so VBYTE stands; STARTMEAS changes the controller at its OK end only. -/
theorem initAndStartmeasFrame : Obligations.InitAndStartmeasFrame := by
  intro s t
  constructor
  · intro h
    simpa only [controllerFrame, Prod.mk.injEq] using exec_init_frame h
  · intro h
    have hframe : controllerFrame t = controllerFrame s := exec_startmeas_frame h
    simp only [controllerFrame, Prod.mk.injEq] at hframe
    obtain ⟨hacc, hvbyte, hover, hcfg, hhost, hin⟩ := hframe
    obtain ⟨hdone, hshadow⟩ : t.initDone = s.initDone ∧ (t.ctrlShadow = s.ctrlShadow
        ∨ (t.ctrlShadow = s.pend ∧ t.phase = .idle ∧ t.rsp.valid = true ∧ t.rsp.status = 0)) := by
      cases hp : s.phase with
      | idle => exact (Prod.mk.inj (exec_startmeas_idle hp h)).imp_right .inl
      | run =>
        obtain ⟨hend, hafter⟩ | ⟨hkept, -⟩ := exec_startmeas_run hp h
        · exact (Prod.mk.inj hend).imp_right fun hs => .inr ⟨hs, hafter⟩
        · exact (Prod.mk.inj hkept).imp_right .inl
    exact ⟨hacc, hvbyte, hover, hdone, hcfg, hhost, hin, hshadow⟩

/-- Settles O43: what the cases of a running INIT and STARTMEAS leave, with PEND and the shadow as the invariant has
them. -/
theorem controllerTransitions : Obligations.ControllerTransitions := by
  intro i s t hs h
  refine ⟨?_, ?_, ?_, ?_, fun hi hm => Prod.mk.inj (exec_controller hi hm h)⟩
  · rintro rfl hp
    cases (exec_accepted hp rfl).symm.trans h
    exact ⟨rfl, rfl⟩
  · rintro rfl hp
    obtain ⟨hc, -⟩ := exec_run_inv hp h
    obtain ⟨huninit, hpend⟩ := hs.initPend hp hc
    have hshadow := hs.uninit huninit
    obtain ⟨hsub, hctl, hidle, hok⟩ | ⟨hctl, hphase⟩ := exec_init_run hp h
    · obtain ⟨hd, hb⟩ := Prod.mk.inj hctl
      exact .inl ⟨hidle, hok, hd, hb.trans (hpend.trans (if_neg hsub))⟩
    · obtain ⟨hd, hb⟩ := Prod.mk.inj hctl
      obtain hrun | ⟨hidle, hst⟩ := hphase
      · exact .inr (.inr ⟨hrun, hd.trans huninit, hb.trans hshadow⟩)
      · exact .inr (.inl ⟨hidle, hst, hd.trans huninit, hb.trans hshadow⟩)
  · rintro rfl hp
    obtain ⟨hc, -⟩ := exec_run_inv hp h
    have hready := ready_of_operandCheck_startmeas (hs.checked hp hc)
    obtain ⟨hctl, hidle, -, hok⟩ | ⟨hctl, hphase⟩ := exec_startmeas_run hp h
    · obtain ⟨hd, hb⟩ := Prod.mk.inj hctl
      exact ⟨hd.trans hready, .inl ⟨hidle, hok, hb.trans (hs.measPend hp hc)⟩⟩
    · obtain ⟨hd, hb⟩ := Prod.mk.inj hctl
      obtain hrun | ⟨hidle, hst⟩ := hphase
      · exact ⟨hd.trans hready, .inr (.inr ⟨hrun, hb⟩)⟩
      · exact ⟨hd.trans hready, .inr (.inl ⟨hidle, hst, hb⟩)⟩
  · rintro rfl hp
    exact Prod.mk.inj (exec_startmeas_idle hp h)

/-- Settles O44: STARTMEAS's data byte is PEND, and an OK end leaves that byte in the shadow. -/
theorem startmeasPreservesGainAndInterruptEnable : Obligations.StartmeasPreservesGainAndInterruptEnable := by
  refine ⟨fun s r v hs hp hc h4 hreq => ?_, fun s t hs h => ?_, fun s hs hd => ?_⟩
  · obtain ⟨acc, ha, hq⟩ := State.request_eq_some hreq
    obtain rfl : .write s.cfg.vregCtrl s.pend = acc := Option.some.inj ((access_startmeas hc).symm.trans ha)
    obtain ⟨h2, -⟩ | ⟨-, rfl⟩ := Access.request_write_eq_wr hq
    · exact absurd (h2.symm.trans h4) (by decide)
    · rw [hs.measPend hp hc]
      exact ⟨ctrlGain_triggerByte hs.config _, ctrlInt_triggerByte hs.config _⟩
  · obtain ⟨hcfg, -, -⟩ := exec_ownersOnly h
    rw [hcfg]
    obtain hb | hb := hs.startmeas_shadow h
    · rw [hb]
      exact ⟨rfl, rfl⟩
    · rw [hb]
      exact ⟨ctrlGain_triggerByte hs.config _, ctrlInt_triggerByte hs.config _⟩
  · obtain ⟨m, -, hb⟩ := hs.ready hd
    rw [hb]
    exact ⟨ctrlGain_ctrlByte (ctrl_apart hs.config) _ _ _ _, ctrlInt_ctrlByte (ctrl_apart hs.config) _ _ _ _⟩

/-- Settles O45: the four fields are put at places apart, DRDY's place is none of theirs, and INIT's and STARTMEAS's
PEND is a control byte. -/
theorem controlByteHoldsItsFields : Obligations.ControlByteHoldsItsFields := by
  refine ⟨fun p r i g m hwf => ?_, fun _ _ _ _ => rfl, fun _ _ hs hp ha => hs.ctrlByte_of_access hp ha⟩
  have hapart : p.ctrl.bits.Nodup := ctrl_apart hwf
  exact ⟨ctrlRst_ctrlByte r i g m hapart, ctrlInt_ctrlByte hapart r i g m, ctrlGain_ctrlByte hapart r i g m,
    ctrlMode_ctrlByte hapart r i g m, ctrlByte_outside r i g m (drdy_not_mem_ctrlPlaces hapart),
    fun k hk => ctrlByte_outside r i g m fun hin => hk (List.mem_append_left _ hin)⟩

/-- Settles O46: the levels are put at places apart, the enables are set, and the rest is 0. -/
theorem ledByteHoldsItsFields : Obligations.LedByteHoldsItsFields := by
  refine ⟨fun p drv sns hwf => ?_, fun _ _ => rfl⟩
  have hapart : p.led.bits.Nodup := led_apart hwf
  exact ⟨rfl, ledByte_drv drv sns hapart, ledByte_drvEn drv sns, ledByte_sns drv sns hapart, ledByte_snsEn drv sns,
    fun _ hk => ledByte_outside drv sns hk, ledByte_on_ne_zero drv sns⟩

/-- Settles O18: INIT has no value check. -/
theorem initIsAccepted : Obligations.InitIsAccepted :=
  fun _ hp => exec_accepted hp rfl

/-- Settles O19: SETLED has no value check. -/
theorem setledIsAccepted : Obligations.SetledIsAccepted :=
  fun _ _ _ _ hp => exec_accepted hp rfl

/-- Settles O20: INIT_DONE is STARTMEAS's value check. -/
theorem startmeasNeedsInit : Obligations.StartmeasNeedsInit :=
  fun _ hp => ⟨fun hd => exec_accepted hp (operandCheck_startmeas_ready hd),
    fun hd => exec_refused hp (operandCheck_startmeas_uninit hd)⟩

/-- Settles O24: the STATUS read ends the virtual write, the first one or the second. -/
theorem initEndsOk : Obligations.InitEndsOk := by
  intro b rest s hp hc h5 ht hb
  constructor
  · intro hsub
    rw [exec_lastPoll hp hc (by rw [hsub]; decide) (access_init hc) h5 ht hb]
    exact congrArg Host.Outcome.next (initWritten_reset hsub)
  · intro hsub
    rw [exec_lastPoll hp hc (by rw [hsub]; decide) (access_init hc) h5 ht hb]
    have hconfig : s.sub ≠ 0 := by rw [hsub]; decide
    exact congrArg Host.Outcome.next (initWritten_config hconfig)

/-- Settles O25: the STATUS read ends the virtual write, after which SETLED finishes. -/
theorem setledEndsOk : Obligations.SetledEndsOk := by
  intro e drv sns b rest s hp hc hsub h5 ht hb
  exact exec_lastPoll hp hc (by rw [hsub]; exact Nat.one_pos) (access_setled hc) h5 ht hb

/-- Settles O26: the STATUS read ends the virtual write, after which STARTMEAS loads the shadow and finishes. -/
theorem startmeasEndsOk : Obligations.StartmeasEndsOk := by
  intro b rest s hp hc hsub h5 ht hb
  exact exec_lastPoll hp hc (by rw [hsub]; exact Nat.one_pos) (access_startmeas hc) h5 ht hb

end Sys2Proof.Machine
end

section
/-! The measurement reader (spec 44_measurement_reader.md): what MREAD makes of a response, where it goes on in a step in
which nothing else comes from outside (`hostStep_run`, `hostStep_issue`, `hostStep_await`), and that only the OK of the
sixth command changes LAST_LUX and LAST_CCT. -/

namespace Sys2Proof.Machine

/-! ### The response MREAD takes -/

section
variable {p : Params} {h : HostSession}

theorem HostSession.receive_ok {k : MreadCmd} {r : Response} (hr : r.status = statusOk) :
    h.receive p k r = h.took p k r.value := if_pos hr

theorem HostSession.receive_not_ok {k : MreadCmd} {r : Response} (hr : r.status ≠ statusOk) :
    h.receive p k r = h.return .stalled := if_neg hr

theorem HostSession.took_ctrl_ready {v : Word} (hd : ctrlDrdy p.ctrl v = true) :
    h.took p .ctrl v = { h with pos := .issue .lux } := if_pos hd

theorem HostSession.took_ctrl_not_ready {v : Word} (hd : ctrlDrdy p.ctrl v = false) :
    h.took p .ctrl v = h.return .notReady := if_neg (Bool.eq_false_iff.mp hd)

/-- A value of the first five commands leaves LAST_LUX and LAST_CCT (R251). -/
theorem HostSession.took_sameSession {k : MreadCmd} (hk : k ≠ .ch2) (v : Word) : sameSession (h.took p k v) h := by
  cases k with
  | ctrl =>
    cases hd : ctrlDrdy p.ctrl v with
    | true => exact took_ctrl_ready hd ▸ ⟨rfl, rfl⟩
    | false => exact took_ctrl_not_ready hd ▸ ⟨rfl, rfl⟩
  | lux | cct | ch0 | ch1 => exact ⟨rfl, rfl⟩
  | ch2 => exact absurd rfl hk

end

/-! ### A step of the host with nothing else from outside -/

section
variable {s : State}

/-- With no act listed the host goes on by itself. -/
theorem step_wait (h : s.inputs = []) : step s = hostStep s := by
  cases s
  cases h
  rfl

/-- A call of MREAD with none running. -/
theorem step_mread {rest : List HostInput} (h : s.inputs = .mread :: rest) (ho : s.host.pos = .off) :
    step s = hostStep { s with inputs := rest, host := s.host.call } := by
  simp only [step, machineStep, State.nextAct, State.dropAct, h, actStep, List.tail_cons, if_pos ho]

/-- While BUSY, MREAD leaves the engine to its command, wherever it stands. -/
theorem hostStep_run {i : Instr} (hp : s.phase = .run) (hc : s.cmd = latchOf i) : hostStep s = exec i s := by
  have hb : s.busy = true := decide_eq_true hp
  rw [← engineStep_run s i hp hc, hostStep]
  split
  · rfl
  · exact if_pos hb
  · exact if_neg (by simp [hb])

/-- In IDLE, MREAD presents the word of its command, which the decoder reads back. -/
theorem hostStep_issue {k : MreadCmd} (hk : s.host.pos = .issue k) (hp : s.phase = .idle) :
    hostStep s = exec (mreadCommand s.cfg k) { s with host := { s.host with pos := .await k } } := by
  have hb : ¬s.busy = true := by simp [State.busy, hp]
  simp only [hostStep, hk, if_neg hb]
  exact presentWord_idle hp (decodeOfEncodeIsTheCommand _)

/-- In IDLE, MREAD takes a valid response, and waits for one. -/
theorem hostStep_await {k : MreadCmd} (hk : s.host.pos = .await k) (hp : s.phase = .idle) :
    hostStep s = if s.rsp.valid = true then .next { s with host := s.host.receive s.cfg k s.rsp } else .next s := by
  simp only [hostStep, hk, State.busy, hp, reduceCtorEq, decide_false, Bool.not_false, Bool.true_and,
    engineStep_idle s hp]

/-- The step in which MREAD takes the response of command `k`. -/
theorem step_receive {k : MreadCmd} (hi : s.inputs = []) (hk : s.host.pos = .await k) (hp : s.phase = .idle)
    (hv : s.rsp.valid = true) : step s = .next { s with host := s.host.receive s.cfg k s.rsp } := by
  rw [step_wait hi, hostStep_await hk hp, if_pos hv]

/-- The step in which MREAD takes the OK of command `k`. -/
theorem step_took {k : MreadCmd} (hi : s.inputs = []) (hk : s.host.pos = .await k) (hp : s.phase = .idle)
    (hv : s.rsp.valid = true) (hok : s.rsp.status = statusOk) :
    step s = .next { s with host := s.host.took s.cfg k s.rsp.value } := by
  rw [step_receive hi hk hp hv, HostSession.receive_ok hok]

end

@[simp] theorem mbByteRead_host (t : State) : (mbByteRead t).host = t.host := by
  unfold mbByteRead
  dsimp only
  split <;> rfl

@[simp] theorem initWritten_host (t : State) : (initWritten t).host = t.host := by
  unfold initWritten
  split <;> rfl

/-- No command writes the host's side: the session is host state (R251). -/
theorem exec_host {i : Instr} {s t : State} (h : exec i s = .next t) : t.host = s.host := by
  refine exec_keeps (f := State.host) (fun _ _ _ _ _ _ _ _ _ _ => rfl) h (fun u => ?_) (fun _ _ _ _ _ => rfl)
    fun u => ?_
  · cases i <;> rfl
  · cases i with
    | readmb a n => exact mbByteRead_host u
    | init => exact initWritten_host u
    | writev | readv | setled | startmeas => rfl

/-! ### The obligations -/

/-- Settles O55: a step of MREAD is the engine's while BUSY and presents its command in IDLE, and each of the five values
before the last sends it to the next command. -/
theorem mreadPresentsSixCommandsInOrder : Obligations.MreadPresentsSixCommandsInOrder := by
  refine ⟨fun s rest hin hoff => ⟨fun hp => ?_, fun i hp hc => ?_⟩, fun k i s hin _ hp hc => ?_,
    fun k s hin hk hp hv => ?_, fun k s hin hk hp => ?_, fun p => ⟨rfl, rfl, rfl, rfl, rfl, rfl⟩,
    fun k n s hin hk hp hv hok hd hkn => ⟨_, step_took hin hk hp hv hok, ?_⟩⟩
  · exact (step_mread hin hoff).trans
      (hostStep_issue (k := .ctrl) (s := { s with inputs := rest, host := s.host.call }) rfl hp)
  · exact (step_mread hin hoff).trans (hostStep_run hp hc)
  · exact (step_wait hin).trans (hostStep_run hp hc)
  · rw [step_wait hin, hostStep_await hk hp, if_neg (Bool.eq_false_iff.mp hv)]
  · exact (step_wait hin).trans (hostStep_issue hk hp)
  · simp only [List.mem_cons, Prod.mk.injEq, List.not_mem_nil, or_false] at hkn
    obtain ⟨rfl, rfl⟩ | ⟨rfl, rfl⟩ | ⟨rfl, rfl⟩ | ⟨rfl, rfl⟩ | ⟨rfl, rfl⟩ := hkn
    · rw [HostSession.took_ctrl_ready (hd rfl)]
      exact ⟨rfl, rfl, rfl, nofun, nofun, nofun, nofun⟩
    · exact ⟨rfl, rfl, rfl, fun _ => rfl, nofun, nofun, nofun⟩
    · exact ⟨rfl, rfl, rfl, nofun, fun _ => rfl, nofun, nofun⟩
    · exact ⟨rfl, rfl, rfl, nofun, nofun, fun _ => rfl, nofun⟩
    · exact ⟨rfl, rfl, rfl, nofun, nofun, nofun, fun _ => rfl⟩

/-- Settles O57: of the cases of `step_cases` only a response taken can change the session, and of the responses only the
OK of the sixth command. -/
theorem sessionChangesOnlyWithAnOkMread : Obligations.SessionChangesOnlyWithAnOkMread := by
  intro s t hs hne
  have hchanged : ¬sameSession t.host s.host := fun ⟨hlux, hcct⟩ => hne.elim (· hlux) (· hcct)
  cases step_cases hs with
  | reset _ ht => exact absurd (ht ▸ ⟨rfl, rfl⟩) hchanged
  | waited k _ _ hk ht => exact absurd (ht ▸ hk) hchanged
  | refused k c _ _ hk ht => exact absurd (ht ▸ hk) hchanged
  | ran i k ov _ hk _ _ _ he => exact absurd (exec_host he ▸ hk) hchanged
  | received k _ _ hpos hv ht =>
    have hhost : t.host = s.host.receive s.cfg k s.rsp := ht ▸ rfl
    have hok : s.rsp.status = statusOk := by
      by_contra hn
      exact hchanged (hhost.trans (HostSession.receive_not_ok hn) ▸ ⟨rfl, rfl⟩)
    rw [HostSession.receive_ok hok] at hhost
    have hlast : k = .ch2 := by
      by_contra hn
      exact hchanged (hhost ▸ HostSession.took_sameSession hn s.rsp.value)
    subst hlast
    exact ⟨hpos, hv, hok, _, congrArg HostSession.result hhost⟩

/-- Settles O54: DRDY is the first command's test, and OK every command's. -/
theorem mreadEndsEarlyWithoutASnapshot : Obligations.MreadEndsEarlyWithoutASnapshot := by
  constructor
  · intro s hin hk hp hv hok hd
    rw [step_took hin hk hp hv hok, HostSession.took_ctrl_not_ready hd]
    rfl
  · intro k s hin hk hp hv hn
    rw [step_receive hin hk hp hv, HostSession.receive_not_ok hn]
    rfl

/-- Settles O56: the sixth value completes MREAD. -/
theorem mreadCompletesWithASnapshot : Obligations.MreadCompletesWithASnapshot :=
  fun _ hin hk hp hv hok => step_took hin hk hp hv hok

end Sys2Proof.Machine
end

section
/-! Exceptions (spec 60_exceptions.md): a failed transfer ends the command (R282, R283), and a word presented while BUSY
overruns (R287). No rule of the engine reads OVERRUN, so every operation of an engine step is blind to it
(`BlindToOverrun`): that the running command goes on unaffected and that OVERRUN is sticky both come from this. -/

namespace Sys2Proof.Machine

/-! ### A transfer that fails -/

/-- A request of a virtual access other than a STATUS read is one of its transfers: a write of the address byte or the
data byte to WRITE, or the read of READ (R161, R171). -/
theorem Access.transfer_cases {p : Params} {acc : Access} {k : BitVec 3} {q : XReq} (h : acc.request p k = some q)
    (hq : q ≠ .rd p.pregStatus) :
    (k = 2 ∧ q = .wr p.pregWrite acc.addressByte)
    ∨ (k = 4 ∧ ∃ a d, acc = .write a d ∧ q = .wr p.pregWrite d)
    ∨ (k = 4 ∧ ∃ a, acc = .read a ∧ q = .rd p.pregRead) := by
  have hk : k = 2 ∨ k = 4 := by
    rcases step_values k with rfl | rfl | rfl | rfl | rfl | rfl | rfl | rfl <;> cases acc <;>
      simp_all [Access.request]
  obtain rfl | rfl := hk
  · cases acc <;> cases h <;> exact .inl ⟨rfl, rfl⟩
  · cases acc with
    | write a d => exact .inr (.inl ⟨rfl, a, d, rfl, (Option.some.inj h).symm⟩)
    | read a => exact .inr (.inr ⟨rfl, a, rfl, (Option.some.inj h).symm⟩)

section
variable {s : State} {c : Nat} {rest : List Answer} (ht : s.tape = .fail c :: rest) (hc : c < 2 ^ s.cfg.xerrW)
include ht hc

/-- A failed write to WRITE stalls (R282). -/
theorem writeStep_fail (v : Byte) (sent : State → State) :
    s.writeStep v sent =
      (afterEvent s rest s.free (.wrFail s.cfg.devAddr s.cfg.pregWrite v c)).stall .transport s.step s.sub c := by
  simp only [State.writeStep, State.physWrite, answer_cons s _ _ ht, narrowXerr_of_lt hc]
  rfl

/-- A failed read of READ stalls (R282). -/
theorem readStep_fail (got : State → State) :
    s.readStep got =
      (afterEvent s rest s.free (.rdFail s.cfg.devAddr s.cfg.pregRead c)).stall .transport s.step s.sub c := by
  simp only [State.readStep, State.physRead, answer_cons s _ _ ht, narrowXerr_of_lt hc]
  rfl

/-- A failed transfer of a virtual access stalls, whatever was to follow the access (R282, R283). -/
theorem runAccess_transfer_fail {acc : Access} {q : XReq} (ha : acc.request s.cfg s.step = some q)
    (hq : q ≠ .rd s.cfg.pregStatus) (done : State → State) :
    runAccess acc done s =
      .next ((afterEvent s rest s.free (q.failEvent s.cfg c)).stall .transport s.step s.sub c) := by
  obtain ⟨h2, rfl⟩ | ⟨h4, a, d, rfl, rfl⟩ | ⟨h4, a, rfl, rfl⟩ := Access.transfer_cases ha hq
  · rw [runAccess_addressWrite done acc h2, writeStep_fail ht hc, XReq.failEvent]
  · rw [runAccess_dataWrite done a d h4, writeStep_fail ht hc, XReq.failEvent]
  · rw [runAccess_dataRead done a h4, readStep_fail ht hc, XReq.failEvent]

end

/-! ### Nothing in the engine reads OVERRUN -/

/-- The state with OVERRUN at `v`. -/
def State.withOverrun (s : State) (v : Bool) : State := { s with overrun := v }

/-- `f` neither reads nor writes OVERRUN. -/
def BlindToOverrun (f : State → State) : Prop := ∀ (t : State) (v : Bool), f (t.withOverrun v) = (f t).withOverrun v

/-- What does not read OVERRUN, whatever it holds, leaves it. -/
theorem BlindToOverrun.keeps {f : State → State} (hf : BlindToOverrun f) (t : State) : (f t).overrun = t.overrun := by
  show (f (t.withOverrun t.overrun)).overrun = t.overrun
  rw [hf]
  rfl

theorem pollMissed_blindToOverrun : BlindToOverrun State.pollMissed := by
  intro t v
  unfold State.pollMissed State.withOverrun
  dsimp only
  split <;> rfl

theorem mbByteRead_blindToOverrun : BlindToOverrun mbByteRead := by
  intro t v
  unfold mbByteRead State.withOverrun
  dsimp only
  split <;> rfl

theorem initWritten_blindToOverrun : BlindToOverrun initWritten := by
  intro t v
  unfold initWritten State.withOverrun
  dsimp only
  split <;> rfl

/-- What a command does when its virtual access is done. -/
theorem accessDone_blindToOverrun (i : Instr) : BlindToOverrun (accessDone i) := by
  cases i with
  | readmb a n => exact mbByteRead_blindToOverrun
  | init => exact initWritten_blindToOverrun
  | writev | readv | setled | startmeas => exact fun _ _ => rfl

section
variable (s : State) (v : Bool)

theorem answer_withOverrun : (s.withOverrun v).answer = (s.answer.1, s.answer.2.withOverrun v) := by
  cases ht : s.tape with
  | nil => simp only [State.answer, State.withOverrun, ht]
  | cons a rest => simp only [State.answer, State.withOverrun, ht]

theorem physRead_withOverrun (r : Byte) :
    (s.withOverrun v).physRead r = ((s.physRead r).1, (s.physRead r).2.withOverrun v) := by
  simp only [State.physRead, answer_withOverrun]
  obtain ⟨_ | _ | _, t⟩ := s.answer <;> rfl

theorem physWrite_withOverrun (r b : Byte) :
    (s.withOverrun v).physWrite r b = ((s.physWrite r b).1, (s.physWrite r b).2.withOverrun v) := by
  simp only [State.physWrite, answer_withOverrun]
  obtain ⟨_ | _ | _, t⟩ := s.answer <;> rfl

end

theorem writeStep_blindToOverrun (b : Byte) {sent : State → State} (hs : BlindToOverrun sent) :
    BlindToOverrun (·.writeStep b sent) := by
  intro s v
  simp only [State.writeStep]
  rw [show (s.withOverrun v).cfg = s.cfg from rfl, physWrite_withOverrun]
  obtain ⟨_ | _ | _, t⟩ := s.physWrite s.cfg.pregWrite b
  · rfl
  · exact hs t v
  · rfl

theorem readStep_blindToOverrun {got : State → State} (hg : BlindToOverrun got) :
    BlindToOverrun (·.readStep got) := by
  intro s v
  simp only [State.readStep]
  rw [show (s.withOverrun v).cfg = s.cfg from rfl, physRead_withOverrun]
  obtain ⟨_ | b | _, t⟩ := s.physRead s.cfg.pregRead
  · rfl
  · exact hg { t with vbyte := b } v
  · rfl

theorem pollStep_blindToOverrun (c : PollCond) {seen : State → State} (hs : BlindToOverrun seen) :
    BlindToOverrun (·.pollStep c seen) := by
  intro s v
  simp only [State.pollStep]
  rw [show (s.withOverrun v).cfg = s.cfg from rfl, physRead_withOverrun]
  obtain ⟨_ | b | _, t⟩ := s.physRead s.cfg.pregStatus
  · rfl
  · have hcount : (t.withOverrun v).countRead = t.countRead.withOverrun v := rfl
    simp only [hcount, hs t.countRead v, pollMissed_blindToOverrun t.countRead v]
    split <;> rfl
  · cases hf : s.cfg.pollXfail with
    | retry => exact pollMissed_blindToOverrun t.countRead v
    | abort => rfl

/-- A step of a virtual access does not read OVERRUN. -/
theorem runAccess_withOverrun {acc : Access} {done : State → State} {s u : State} (hd : BlindToOverrun done)
    (h : runAccess acc done s = .next u) (v : Bool) :
    runAccess acc done (s.withOverrun v) = .next (u.withOverrun v) := by
  revert h
  cases acc with
  | write a d =>
    simp only [runAccess, vwriteStep, show (s.withOverrun v).step = s.step from rfl]
    split <;> rintro ⟨⟩
    · exact congrArg _ (pollStep_blindToOverrun .txClear (fun _ _ => rfl) s v)
    · exact congrArg _ (writeStep_blindToOverrun _ (fun _ _ => rfl) s v)
    · exact congrArg _ (pollStep_blindToOverrun .txSet (fun _ _ => rfl) s v)
    · exact congrArg _ (writeStep_blindToOverrun d (fun _ _ => rfl) s v)
    · exact congrArg _ (pollStep_blindToOverrun .txClear hd s v)
  | read a =>
    simp only [runAccess, vreadStep, show (s.withOverrun v).step = s.step from rfl]
    split <;> rintro ⟨⟩
    · exact congrArg _ (pollStep_blindToOverrun .txClear (fun _ _ => rfl) s v)
    · exact congrArg _ (writeStep_blindToOverrun _ (fun _ _ => rfl) s v)
    · exact congrArg _ (pollStep_blindToOverrun .rxSet (fun _ _ => rfl) s v)
    · exact congrArg _ (readStep_blindToOverrun hd s v)

/-- In RUN an engine step does not read OVERRUN. -/
theorem engineStep_withOverrun {s u : State} (hp : s.phase = .run) (h : engineStep s = .next u) (v : Bool) :
    engineStep (s.withOverrun v) = .next (u.withOverrun v) := by
  obtain ⟨hi, -⟩ | ⟨-, i, -, he⟩ := engineStep_inv h
  · exact absurd (hp.symm.trans hi) (by decide)
  · obtain ⟨hc, hs, acc, ha, -⟩ := exec_run_inv hp he
    rw [exec_run i acc s hp hc ha hs] at he
    rw [engineStep_run (s.withOverrun v) i hp hc, exec_run i acc (s.withOverrun v) hp hc ha hs]
    exact runAccess_withOverrun (accessDone_blindToOverrun i) he v

/-- No command writes OVERRUN (R287: only the command port does). -/
theorem exec_overrun {i : Instr} {s t : State} (h : exec i s = .next t) : t.overrun = s.overrun :=
  exec_keeps (f := State.overrun) (fun _ _ _ _ _ _ _ _ _ _ => rfl) h (fun _ => by cases i <;> rfl)
    (fun _ _ _ _ _ => rfl) (accessDone_blindToOverrun i).keeps

/-! ### The command port while BUSY -/

/-- While BUSY the command port discards the word and sets OVERRUN (R287). -/
theorem presentWord_run {s : State} (w : Word) (hp : s.phase = .run) :
    presentWord w s = engineStep (s.withOverrun true) := by
  simp only [presentWord, hp, State.withOverrun]

/-- In RUN a word at the head of the host's acts leaves the engine its own step, with OVERRUN set (R287). -/
theorem step_present_run {s : State} {w : Word} {rest : List HostInput} (hp : s.phase = .run)
    (hin : s.inputs = .present w :: rest) :
    step s = engineStep (({ s with inputs := rest } : State).withOverrun true) :=
  (step_present hin).trans (presentWord_run w hp)

/-- While BUSY the host leaves the engine alone, wherever MREAD stands. -/
theorem hostStep_busy {s : State} (hp : s.phase = .run) : hostStep s = engineStep s := by
  have hb : s.busy = true := decide_eq_true hp
  simp only [hostStep, hb]
  split <;> rfl

/-! ### The obligations -/

/-- Settles O35: the request is a transfer of the running access, and it fails. -/
theorem failedTransferEndsTheCommand : Obligations.FailedTransferEndsTheCommand := by
  intro i q c rest s hp hc hs hq hne ht hcode
  obtain ⟨acc, ha, hacc⟩ := State.request_eq_some hq
  rw [exec_run i acc s hp hc ha hs, runAccess_transfer_fail ht hcode hacc hne]
  rfl

/-- Settles O9: the step that takes a word in RUN is the engine's step with OVERRUN set, which the engine neither reads
nor writes. -/
theorem wordPresentedWhileBusyOverruns : Obligations.WordPresentedWhileBusyOverruns := by
  refine ⟨fun s u w rest hp hin hu => ?_, fun s t w rest hp hin ht => ?_, fun s t ho hn ht => ?_⟩
  · have hengine : engineStep { s with inputs := rest } = .next u :=
      (hostStep_busy (s := { s with inputs := rest }) hp).symm.trans hu
    rw [step_present_run hp hin]
    exact engineStep_withOverrun (s := { s with inputs := rest }) hp hengine true
  · rw [step_present_run hp hin] at ht
    obtain ⟨-, rfl⟩ | ⟨-, i, -, he⟩ := engineStep_inv ht
    · rfl
    · exact exec_overrun he
  · cases step_cases ht with
    | reset hr _ => exact absurd hr hn
    | waited k _ _ _ h => exact h ▸ ho
    | received k _ _ _ _ h => exact h ▸ ho
    | refused k c _ _ _ h => exact h ▸ ho
    | ran i k ov _ _ hov _ _ he => exact (exec_overrun he).trans (hov ho)

end Sys2Proof.Machine
end

section
/-! Reset and hazards (spec 70_reset_and_hazards.md): a block reset (R320), that a state of the invariant goes on
(R332), and that every command ends within the transaction bounds of its kind (R333). For the bounds, `UnderWay` says
how many transactions a running command has issued at its position, at least and at most; every engine step issues one
more, and either keeps that or ends the command (`UnderWay.next`), so it ends before it exceeds its maximum. -/

namespace Sys2Proof.Machine

/-! ### Block reset -/

/-- A block reset at the head of the host's acts is the whole step, in IDLE and in RUN (R320). -/
theorem step_reset {s : State} {rest : List HostInput} (h : s.inputs = .reset :: rest) :
    step s = .next ({ s with inputs := rest } : State).blockReset := by
  simp only [step, machineStep, State.nextAct, State.dropAct, h, actStep, List.tail_cons]

/-! ### The engine goes on -/

/-- At one of its steps a virtual access goes on (R161, R171). -/
theorem runAccess_next {acc : Access} {s : State} (done : State → State) (hk : acc.hasStep s.step = true) :
    ∃ t, runAccess acc done s = .next t := by
  cases hr : runAccess acc done s with
  | next t => exact ⟨t, rfl⟩
  | fault r =>
    cases hr ▸ runAccess_spec acc done s with
    | off hoff => exact absurd (hk.symm.trans hoff) (by decide)
  | refused r => nomatch hr ▸ runAccess_spec acc done s

/-- In IDLE every command goes on: it is refused or accepted (R31, R285). -/
theorem exec_idle_next (i : Instr) {s : State} (hp : s.phase = .idle) : ∃ t, exec i s = .next t := by
  cases hk : operandCheck s.cfg s.initDone i with
  | some c => exact ⟨_, exec_refused hp hk⟩
  | none => exact ⟨_, exec_accepted hp hk⟩

/-- In IDLE the command port answers every word (R116, R117, R124). -/
theorem presentWord_idle_next (w : Word) {s : State} (hp : s.phase = .idle) : ∃ t, presentWord w s = .next t := by
  cases hd : decode w with
  | ok i =>
    rw [presentWord_idle hp hd]
    exact exec_idle_next i hp
  | error e => exact ⟨s.illegal (decodeCause e), by simp only [presentWord, hp, hd]⟩

/-- Under the invariant the engine goes on: in RUN its position is one of the latched command's (R31 to R33). -/
theorem Inv.engineStep_next {s : State} (h : Inv s) : ∃ t, engineStep s = .next t := by
  cases hp : s.phase with
  | idle => exact ⟨s, engineStep_idle s hp⟩
  | run =>
    obtain ⟨i, acc, hc, -, hs, ha, hk⟩ := h.running hp
    rw [engineStep_run s i hp hc, exec_run i acc s hp hc ha hs]
    exact runAccess_next (Machine.accessDone i) hk

/-- Under the invariant the command port takes every word: in RUN the word is discarded (R287). -/
theorem Inv.presentWord_next {s : State} (h : Inv s) (w : Word) : ∃ t, presentWord w s = .next t := by
  cases hp : s.phase with
  | idle => exact presentWord_idle_next w hp
  | run =>
    rw [presentWord_run w hp]
    exact Inv.engineStep_next (h.outside s.vbyte true s.host s.inputs s.tape s.free s.trace)

/-- Under the invariant the host and the engine go on, wherever MREAD stands. -/
theorem Inv.hostStep_next {s : State} (h : Inv s) : ∃ t, hostStep s = .next t := by
  cases hp : s.phase with
  | run =>
    rw [hostStep_busy hp]
    exact h.engineStep_next
  | idle =>
    cases hk : s.host.pos with
    | off =>
      simp only [hostStep, hk]
      exact h.engineStep_next
    | issue k =>
      rw [hostStep_issue hk hp]
      exact exec_idle_next _ hp
    | await k =>
      rw [hostStep_await hk hp]
      split
      · exact ⟨_, rfl⟩
      · exact ⟨s, rfl⟩

/-! ### How many transactions a command issues -/

/-- The most transactions a virtual access of a command issues, with `b` STATUS reads a polling step; with `b = 1` the
fewest (R161, R171). -/
def accessTransactions (b : Nat) : Instr → Nat
  | .readv _ => 2 * b + 2
  | .readmb _ _ => 2 * b + 2
  | .writev _ _ => 3 * b + 2
  | .init => 3 * b + 2
  | .setled _ _ _ => 3 * b + 2
  | .startmeas => 3 * b + 2

/-- The transactions of a virtual access before step `k` and the `p` STATUS reads made there, with `b` reads in each
polling step that is done (R161, R171). -/
def transactionsBefore (b : Nat) (k : BitVec 3) (p : Nat) : Nat :=
  match k.toNat with
  | 1 => p
  | 2 => b
  | 3 => b + 1 + p
  | 4 => 2 * b + 1
  | 5 => 2 * b + 2 + p
  | _ => 0

/-- A command's bound is that of its virtual accesses (R333). -/
theorem maxTransactions_eq (b : Nat) (i : Instr) : maxTransactions b i = accessCount i * accessTransactions b i := by
  cases i <;> simp [maxTransactions, accessCount, accessTransactions]

/-- The fewest transactions of a command that ends OK are those with one STATUS read a polling step (R333). -/
theorem minTransactionsOk_eq (i : Instr) : minTransactionsOk i = accessCount i * accessTransactions 1 i := by
  cases i with
  | readmb a n => exact Nat.mul_comm 4 n.toNat
  | _ => rfl

section
variable {i : Instr} {s : State} (hc : s.cmd = latchOf i)
include hc

/-- A virtual write has three polling steps and two transfers (R161). -/
theorem accessTransactions_write {a : VAddr} {d : Byte} (ha : s.access = some (.write a d)) (b : Nat) :
    accessTransactions b i = 3 * b + 2 := by
  simp only [State.access, hc, instrOf_latchOf] at ha
  cases i <;> cases ha <;> rfl

/-- A virtual read has two of each (R171). -/
theorem accessTransactions_read {a : VAddr} (ha : s.access = some (.read a)) (b : Nat) :
    accessTransactions b i = 2 * b + 2 := by
  simp only [State.access, hc, instrOf_latchOf] at ha
  cases i <;> cases ha <;> rfl

/-- Before the access is done there is a transaction left (R161, R171). -/
theorem transactionsBefore_lt {acc : Access} (ha : s.access = some acc) {b p : Nat} {k : BitVec 3}
    (hk : acc.hasStep k = true) (hp : (acc.polls k).isSome = true → p < b) :
    transactionsBefore b k p < accessTransactions b i := by
  cases acc with
  | write a d =>
    rw [accessTransactions_write hc ha]
    rcases step_values k with rfl | rfl | rfl | rfl | rfl | rfl | rfl | rfl <;>
      simp [transactionsBefore, Access.polls, Access.hasStep] at hp hk ⊢ <;> omega
  | read a =>
    rw [accessTransactions_read hc ha]
    rcases step_values k with rfl | rfl | rfl | rfl | rfl | rfl | rfl | rfl <;>
      simp [transactionsBefore, Access.polls, Access.hasStep] at hp hk ⊢ <;> omega

end

/-- A polling step counts its reads. -/
theorem transactionsBefore_again {acc : Access} {c : PollCond} {k : BitVec 3} (h : acc.polls k = some c) (b p : Nat) :
    transactionsBefore b k (p + 1) = transactionsBefore b k p + 1 := by
  rcases Access.polls_step h with rfl | rfl | rfl <;> rfl

/-- One more read than `p` ends a polling step after at most `b`. -/
theorem transactionsBefore_seen {k : BitVec 3} (h : k = 1 ∨ k = 3) {b p : Nat} (hp : p < b) (q : Nat) :
    transactionsBefore b k p + 1 ≤ transactionsBefore b (k + 1) q := by
  rcases h with rfl | rfl
  · exact hp
  · show b + 1 + p + 1 ≤ 2 * b + 1
    omega

/-- One more read ends a polling step after at least one. -/
theorem transactionsBefore_one_seen {k : BitVec 3} (h : k = 1 ∨ k = 3) (p q : Nat) :
    transactionsBefore 1 (k + 1) q ≤ transactionsBefore 1 k p + 1 := by
  rcases h with rfl | rfl
  · exact Nat.le_add_left 1 p
  · show 2 * 1 + 1 ≤ 1 + 1 + p + 1
    omega

/-- A transfer is one transaction. -/
theorem transactionsBefore_sent {k : BitVec 3} (h : k = 2 ∨ k = 4) (b p : Nat) :
    transactionsBefore b (k + 1) 0 = transactionsBefore b k p + 1 := by
  rcases h with rfl | rfl <;> rfl

/-! ### When a virtual access is done -/

/-- When its virtual access is done a command begins its next one, or ends OK after its last (R165, R175, R190, R215,
R220, R225). -/
theorem accessDone_cases {i : Instr} {t : State} (hc : t.cmd = latchOf i) (hs : t.sub.toNat < accessCount i) :
    (t.sub.toNat + 1 < accessCount i
      ∧ ∃ a q, accessDone i t = { t with sub := t.sub + 1, step := 1, pcnt := 0, acc := a, pend := q })
    ∨ (t.sub.toNat + 1 = accessCount i ∧ ∃ u v, accessDone i t = State.finish u v) := by
  cases i with
  | readmb a n =>
    obtain hlast | hnext : t.sub.toNat + 1 = n.toNat ∨ t.sub.toNat + 1 < n.toNat := by
      simp only [accessCount] at hs
      omega
    · exact .inr ⟨hlast, _, _, mbByteRead_last hc hlast⟩
    · exact .inl ⟨hnext, _, _, mbByteRead_next hc hnext⟩
  | init =>
    by_cases h0 : t.sub = 0
    · refine .inl ⟨by simp [h0, accessCount], t.acc, defaultCfg t.cfg, ?_⟩
      simp only [accessDone, initWritten_reset h0, h0]
      rfl
    · refine .inr ⟨?_, _, _, initWritten_config h0⟩
      simp only [accessCount] at hs ⊢
      bv_omega
  | writev | readv | setled | startmeas =>
    exact .inr ⟨congrArg (· + 1) (Nat.lt_one_iff.mp hs), _, _, rfl⟩

/-! ### A command under way -/

/-- A command `i` has ended after `n` transactions, within the bounds of R333, with a valid response. -/
structure EndedWithin (b : Nat) (i : Instr) (n : Nat) (t : State) : Prop where
  idle : t.phase = .idle
  valid : t.rsp.valid = true
  atMost : n ≤ maxTransactions b i
  atLeastOk : t.rsp.status = 0 → minTransactionsOk i ≤ n
  noneIllegal : t.rsp.status = 3 → n = 0
  someStalled : t.rsp.status = 1 → 1 ≤ n
  budgetSpent : t.rsp.status = 1 → t.rsp.cause = 0 → t.rsp.step = 1 → t.rsp.sub = 0 → n = b

/-- The command `i` runs in its access `acc` with `n` transactions issued, within the bounds of its position at
POLL_BUDGET `b`, and the transport has answers for all that are left. -/
structure UnderWay (b : Nat) (i : Instr) (acc : Access) (n : Nat) (s : State) : Prop where
  inAccess : InAccess i acc s
  budget : s.cfg.pollBudget = b
  /-- No access index wraps (R33). -/
  count : accessCount i ≤ 4
  hasStep : acc.hasStep s.step = true
  polling : (acc.polls s.step).isSome = true → s.pcnt.toNat < b
  atLeast : s.sub.toNat * accessTransactions 1 i + transactionsBefore 1 s.step s.pcnt.toNat ≤ n
  atMost : n ≤ s.sub.toNat * accessTransactions b i + transactionsBefore b s.step s.pcnt.toNat
  answers : maxTransactions b i ≤ n + s.tape.length
  answered : .silent ∉ s.tape

section
variable {b : Nat} {i : Instr} {acc : Access} {n : Nat} {s : State} (h : UnderWay b i acc n s)
include h

/-- While a command runs it has a transaction left (R333). -/
theorem UnderWay.lt_maxTransactions : n < maxTransactions b i := by
  have hlt := transactionsBefore_lt h.inAccess.latched h.inAccess.access h.hasStep h.polling
  have hle : (s.sub.toNat + 1) * accessTransactions b i ≤ accessCount i * accessTransactions b i :=
    Nat.mul_le_mul_right _ h.inAccess.sub
  have hmost := h.atMost
  rw [maxTransactions_eq]
  rw [Nat.succ_mul] at hle
  omega

/-- A running command's step goes on, with an answer taken and its event recorded (R5). -/
theorem UnderWay.issues : ∃ e t, step s = .next t ∧ AccessStep acc (accessDone i) s (.next t) ∧ t.trace = e :: s.trace
    ∧ maxTransactions b i ≤ n + 1 + t.tape.length ∧ .silent ∉ t.tape := by
  obtain ⟨t, ht⟩ := runAccess_next (accessDone i) h.hasStep
  obtain ⟨q, -, hq⟩ := runAccess_issues (accessDone_keepsTransport i) ht
  have hlt := h.lt_maxTransactions
  have hlen := h.answers
  have hans := h.answered
  cases htape : s.tape with
  | nil =>
    simp only [htape, List.length_nil] at hlen
    omega
  | cons a rest =>
    obtain ⟨rfl, htrace⟩ := hq.of_tape htape
    simp only [htape, List.length_cons, List.mem_cons, not_or] at hlen hans
    obtain ⟨hne, hrest⟩ := hans
    obtain ⟨e, he⟩ : ∃ e, q.events s.cfg a = [e] := by
      cases a with
      | ok b => exact ⟨_, rfl⟩
      | fail c => exact ⟨_, rfl⟩
      | silent => exact absurd rfl hne
    exact ⟨e, t, h.inAccess.step.trans ht, ht ▸ runAccess_spec acc (accessDone i) s, by rw [htrace, he]; rfl, by omega,
      hrest⟩

/-- A polling step that goes on has budget left (R145). -/
theorem UnderWay.pcnt_lt {c : PollCond} (hc : acc.polls s.step = some c) : s.pcnt.toNat < b :=
  h.polling (Option.isSome_of_eq_some hc)

/-- The count of STATUS reads does not wrap (R149). -/
theorem UnderWay.pcnt_succ {c : PollCond} (hc : acc.polls s.step = some c) :
    (s.pcnt + 1).toNat = s.pcnt.toNat + 1 := by
  have hlt := h.pcnt_lt hc
  have hle : b ≤ 65535 := h.budget ▸ pollBudget_le s.cfg
  exact BitVec.toNat_add_of_lt (by show s.pcnt.toNat + 1 < 65536; omega)

/-- At step 1 of its first access a command has made the STATUS reads counted there, and nothing else (R33). -/
theorem UnderWay.eq_pcnt (h1 : s.step = 1) (h0 : s.sub = 0) : n = s.pcnt.toNat :=
  Nat.le_antisymm (by simpa [h1, h0, transactionsBefore] using h.atMost)
    (by simpa [h1, h0, transactionsBefore] using h.atLeast)

/-! ### One transaction more -/

/-- One transaction more, and the command has ended STALLED. -/
theorem UnderWay.stalled {c : StallCause} {u : State} {x : Nat}
    (hb : c = .timeout → s.step = 1 → s.sub = 0 → n + 1 = b) :
    EndedWithin b i (n + 1) (u.stall c s.step s.sub x) where
  idle := rfl
  valid := rfl
  atMost := h.lt_maxTransactions
  atLeastOk hs := absurd hs (show statusStalled ≠ 0 by decide)
  noneIllegal hs := absurd hs (show statusStalled ≠ 3 by decide)
  someStalled _ := Nat.le_add_left 1 n
  budgetSpent _ hc := hb (by cases c with
    | timeout => rfl
    | transport => exact absurd hc (show StallCause.transport.code ≠ 0 by decide))

section
variable {tp : List Answer} (hlen : maxTransactions b i ≤ n + 1 + tp.length) (hans : .silent ∉ tp)
  (fr : Nat) (tr : List XEvent)
include hlen hans

/-- One transaction more, and the access goes on at step `k` with `p` STATUS reads made there. -/
theorem UnderWay.moved {k : BitVec 3} {p : BitVec 16} (hk : acc.hasStep k = true)
    (hp : (acc.polls k).isSome = true → p.toNat < b)
    (hlo : transactionsBefore 1 k p.toNat ≤ transactionsBefore 1 s.step s.pcnt.toNat + 1)
    (hhi : transactionsBefore b s.step s.pcnt.toNat + 1 ≤ transactionsBefore b k p.toNat) :
    UnderWay b i acc (n + 1) { s with step := k, pcnt := p, tape := tp, free := fr, trace := tr } where
  inAccess := ⟨h.inAccess.alone, h.inAccess.run, h.inAccess.latched, h.inAccess.sub, h.inAccess.access⟩
  budget := h.budget
  count := h.count
  hasStep := hk
  polling := hp
  atLeast := (Nat.add_le_add_left hlo _).trans (Nat.succ_le_succ h.atLeast)
  atMost := (Nat.succ_le_succ h.atMost).trans (Nat.add_le_add_left hhi _)
  answers := hlen
  answered := hans

/-- One transaction more, and the access is done: the command is under way in its next one, or has ended OK. -/
theorem UnderWay.of_accessDone (p : BitVec 16) (v : Byte)
    (hlo : accessTransactions 1 i ≤ transactionsBefore 1 s.step s.pcnt.toNat + 1) :
    (∃ acc', UnderWay b i acc' (n + 1) (accessDone i (afterAccess s p v tp fr tr)))
    ∨ EndedWithin b i (n + 1) (accessDone i (afterAccess s p v tp fr tr)) := by
  have hleast : (s.sub.toNat + 1) * accessTransactions 1 i ≤ n + 1 := by
    have hbefore := h.atLeast
    rw [Nat.succ_mul]
    omega
  have hmost : n + 1 ≤ (s.sub.toNat + 1) * accessTransactions b i := by
    have hbefore := h.atMost
    have hleft := transactionsBefore_lt h.inAccess.latched h.inAccess.access h.hasStep h.polling
    rw [Nat.succ_mul]
    omega
  obtain ⟨hnext, a, q, ht⟩ | ⟨hlast, u, w, ht⟩ :=
    accessDone_cases (t := afterAccess s p v tp fr tr) h.inAccess.latched h.inAccess.sub <;> rw [ht]
  · replace hnext : s.sub.toNat + 1 < accessCount i := hnext
    have hsub : (s.sub + 1).toNat = s.sub.toNat + 1 := sub_succ_toNat (hnext.trans_le h.count)
    obtain ⟨acc', hacc⟩ := access_isSome i
      { afterAccess s p v tp fr tr with sub := s.sub + 1, step := 1, pcnt := 0, acc := a, pend := q } h.inAccess.latched
    exact .inl ⟨acc', ⟨h.inAccess.alone, h.inAccess.run, h.inAccess.latched, hsub ▸ hnext, hacc⟩, h.budget, h.count,
      acc'.hasStep_one, fun _ => h.budget ▸ pollBudget_pos s.cfg, hsub ▸ hleast, hsub ▸ hmost, hlen, hans⟩
  · replace hlast : s.sub.toNat + 1 = accessCount i := hlast
    rw [hlast, ← minTransactionsOk_eq] at hleast
    have not_illegal : statusOk ≠ 3 := by decide
    have not_stalled : statusOk ≠ 1 := by decide
    exact .inr ⟨rfl, rfl, h.lt_maxTransactions, fun _ => hleast, fun hs => absurd hs not_illegal,
      fun hs => absurd hs not_stalled, fun hs => absurd hs not_stalled⟩

end

/-- A running command's step issues one transaction, and the command is under way still or has ended. -/
theorem UnderWay.next : ∃ e t, step s = .next t ∧ t.trace = e :: s.trace
    ∧ ((∃ acc', UnderWay b i acc' (n + 1) t) ∨ EndedWithin b i (n + 1) t) := by
  obtain ⟨e, t, ht, hs, htr, hlen, hans⟩ := h.issues
  refine ⟨e, t, ht, htr, ?_⟩
  cases hs with
  | blocked tp fr _ => exact absurd htr (List.cons_ne_self e s.trace).symm
  | again tp fr c e hpl _ hlt =>
    have hp := h.pcnt_succ hpl
    refine .inl ⟨acc, h.moved hlen hans fr _ h.hasStep (fun _ => h.budget ▸ hlt) ?_ ?_⟩
    · rw [hp, transactionsBefore_again hpl]
    · rw [hp, transactionsBefore_again hpl]
  | seen tp fr c e hpl _ h13 =>
    have h24 : acc.hasStep (s.step + 1) = true ∧ acc.polls (s.step + 1) = none := by
      rcases h13 with h13 | h13 <;> rw [h13] <;> cases acc <;> exact ⟨rfl, rfl⟩
    exact .inl ⟨acc, h.moved hlen hans fr _ h24.1 (fun hn => by rw [h24.2] at hn; cases hn)
      (transactionsBefore_one_seen h13 _ _) (transactionsBefore_seen h13 (h.pcnt_lt hpl) _)⟩
  | sent tp fr v hv =>
    have h24 : (s.step = 2 ∨ s.step = 4) ∧ acc.hasStep (s.step + 1) = true := by
      rcases hv with ⟨h2, -⟩ | ⟨h4, a, rfl⟩
      · exact ⟨.inl h2, by rw [h2]; cases acc <;> rfl⟩
      · exact ⟨.inr h4, by rw [h4]; rfl⟩
    exact .inl ⟨acc, h.moved (p := 0) hlen hans fr _ h24.2 (fun _ => h.budget ▸ pollBudget_pos s.cfg)
      (transactionsBefore_sent h24.1 1 _).le (transactionsBefore_sent h24.1 b _).ge⟩
  | written a d tp fr e hw h5 _ =>
    rw [(accessDone_keepsTransport i _).1] at hlen hans
    refine h.of_accessDone (tp := tp) hlen hans fr (e :: s.trace) (s.pcnt + 1) s.vbyte ?_
    subst hw
    rw [accessTransactions_write h.inAccess.latched h.inAccess.access, h5]
    show 5 ≤ 4 + s.pcnt.toNat + 1
    omega
  | got a v tp fr hr h4 =>
    rw [(accessDone_keepsTransport i _).1] at hlen hans
    refine h.of_accessDone (tp := tp) hlen hans fr (.rdOk s.cfg.devAddr s.cfg.pregRead v :: s.trace) s.pcnt v ?_
    subst hr
    rw [accessTransactions_read h.inAccess.latched h.inAccess.access, h4]
    exact Nat.le_refl 4
  | timeout tp fr c e hpl _ hge =>
    refine .inr (h.stalled fun _ h1 h0 => ?_)
    have hlt := h.pcnt_lt hpl
    rw [h.pcnt_succ hpl, h.budget] at hge
    rw [h.eq_pcnt h1 h0]
    omega
  | aborted tp fr c e x _ _ _ => exact .inr (h.stalled fun hc => nomatch hc)
  | writeFailed tp fr v x _ _ => exact .inr (h.stalled fun hc => nomatch hc)
  | readFailed a tp fr x _ _ _ => exact .inr (h.stalled fun hc => nomatch hc)

end

/-- A command under way ends before it has issued more than its maximum (R333). -/
theorem UnderWay.ends {b : Nat} {i : Instr} {acc : Access} {n : Nat} {s : State} (h : UnderWay b i acc n s) :
    ∃ k t issued, k ≤ maxTransactions b i - n ∧ runSteps k s = .next t ∧ t.trace = issued ++ s.trace
      ∧ EndedWithin b i (n + issued.length) t := by
  induction hm : maxTransactions b i - n generalizing acc n s with
  | zero => exact absurd h.lt_maxTransactions (by omega)
  | succ m ih =>
    obtain ⟨e, t, hst, htr, ⟨acc', ht⟩ | ht⟩ := h.next
    · obtain ⟨k, u, issued, hk, hrun, hu, hend⟩ := ih ht (by omega)
      refine ⟨k + 1, u, issued ++ [e], Nat.succ_le_succ hk, (runSteps_next k hst).trans hrun, ?_, ?_⟩
      · rw [hu, htr, List.append_assoc]
        rfl
      · rwa [List.length_append, Nat.add_comm issued.length, ← Nat.add_assoc]
    · exact ⟨1, t, [e], Nat.le_add_left 1 m, runSteps_next 0 hst, htr, ht⟩

/-- A command that passed its checks makes at most four accesses (R33, R118). -/
theorem accessCount_le {p : Params} {d : Bool} {i : Instr} (h : operandCheck p d i = none) : accessCount i ≤ 4 := by
  cases i with
  | readmb a n => exact (readmbCheck_none h).2
  | _ => simp [accessCount]

/-- The `accept` lines do not touch the host. -/
@[simp] theorem startOf_host (i : Instr) (t : State) : (startOf i t).host = t.host := by cases i <;> rfl

/-- An accepted command is under way at step 1 of its first access, nothing issued. -/
theorem UnderWay.accepted {i : Instr} {s : State} (hh : s.host.pos = .off)
    (hk : operandCheck s.cfg s.initDone i = none) (hlen : maxTransactions s.cfg.pollBudget i ≤ s.tape.length)
    (hans : .silent ∉ s.tape) :
    ∃ acc, UnderWay s.cfg.pollBudget i acc 0 (atPoint (afterAccept s i) 1 0 s.tape s.trace) := by
  have hcmd : (afterAccept s i).cmd = latchOf i := by simp [afterAccept]
  have hsub : (afterAccept s i).sub = 0 := by simp [afterAccept]
  have hcfg : (afterAccept s i).cfg = s.cfg := by simp [afterAccept]
  obtain ⟨acc, hacc⟩ := access_isSome i (afterAccept s i) hcmd
  have hin : InAccess i acc (afterAccept s i) :=
    ⟨⟨by simp [afterAccept], by simpa [afterAccept] using hh⟩, by simp [afterAccept], hcmd,
      hsub ▸ accessCount_pos hk, hacc⟩
  exact ⟨acc, {
    inAccess := hin.atPoint 1 0 s.tape s.trace
    budget := congrArg Params.pollBudget hcfg
    count := accessCount_le hk
    hasStep := acc.hasStep_one
    polling := fun _ => pollBudget_pos s.cfg
    atLeast := by simp [atPoint, atStep, hsub, transactionsBefore]
    atMost := Nat.zero_le _
    answers := hlen.trans (Nat.le_add_left _ _)
    answered := hans }⟩

/-! ### The obligations -/

/-- Settles O10: the step is the block reset, whose registers are its definition's. -/
theorem blockResetClearsTheBlock : Obligations.BlockResetClearsTheBlock := by
  intro s rest hin
  exact ⟨_, step_reset hin, rfl, rfl, rfl, rfl, rfl, rfl, rfl, rfl, rfl, rfl, rfl, rfl, rfl, rfl, rfl, rfl, rfl, rfl,
    rfl, rfl⟩

/-- Settles O52: whatever the host's act, what follows goes on under the invariant, which the act itself keeps. -/
theorem invariantStatesDoNotFault : Obligations.InvariantStatesDoNotFault := by
  intro s h hm
  show ∃ t, actStep s.nextAct s.dropAct = .next t
  have hdrop : Inv s.dropAct := h.seenBy s.host s.overrun
  cases ha : s.nextAct with
  | wait => exact hdrop.hostStep_next
  | present w => exact hdrop.presentWord_next w
  | mread =>
    have hcall : actStep .mread s.dropAct = hostStep (seenBy s s.host.call s.overrun) := if_pos (hm ha)
    rw [hcall]
    exact (h.seenBy s.host.call s.overrun).hostStep_next
  | reset => exact ⟨s.dropAct.blockReset, rfl⟩

/-- Settles O33: a refused command has ended after its one step; an accepted one is under way. -/
theorem everyCommandEndsWithinItsBound : Obligations.EveryCommandEndsWithinItsBound := by
  intro i s hp hh hin hlen hans
  cases hk : operandCheck s.cfg s.initDone i with
  | some c =>
    have hstep : step s = .next (({ s with inputs := [] } : State).illegal c) :=
      (stepRunsThePresentedCommand s _ _ i hp hin (decodeOfEncodeIsTheCommand i)).trans
        (exec_refused (s := { s with inputs := [] }) hp hk)
    have not_ok : statusIllegal ≠ 0 := by decide
    have not_stalled : statusIllegal ≠ 1 := by decide
    exact ⟨1, _, [], Nat.le_refl 1, Nat.le_add_left 1 _, runSteps_next 0 hstep, hp, rfl, rfl, Nat.zero_le _,
      fun hs => absurd hs not_ok, fun _ => rfl, fun hs => absurd hs not_stalled, fun hs => absurd hs not_stalled⟩
  | none =>
    obtain ⟨acc, hway⟩ := UnderWay.accepted hh hk hlen hans
    obtain ⟨k, t, issued, hkm, hrun, htr, hend⟩ := hway.ends
    rw [Nat.zero_add] at hend
    have hsteps : runSteps (k + 1) s = .next t := (runSteps_accepted hp hin hk rfl k).trans hrun
    exact ⟨k + 1, t, issued, Nat.le_add_left 1 k, Nat.succ_le_succ hkm, hsteps, hend.idle, hend.valid, htr, hend.atMost,
      hend.atLeastOk, fun hs => List.eq_nil_of_length_eq_zero (hend.noneIllegal hs), hend.someStalled,
      hend.budgetSpent⟩

end Sys2Proof.Machine
end
